-- ==== Sys2Proof/Word.lean ====
section
/-! DEFINITION. The plainest words of the device: bytes, converter codes and post serials. -/

namespace Sys2Proof

/-- One byte of a message, a frame or the serial memory (chapter Formats and Signals). -/
abbrev Byte := BitVec 8

/-- A post's serial, a 32-bit number (R7, R18). -/
abbrev Serial := BitVec 32

/-- A code of the cabinet converter, 0 to 4095 (R158). -/
abbrev Code := BitVec 12

end Sys2Proof
end

