-- ==== Sys2Proof/Syntax.lean ====
section
/-! DEFINITION. The commands of the device: one constructor of `Instr` for each row of
spec/opcode_table.json, with the names the operands are written in. A request command carries its
master, its tag and the bytes of its body (R182, R209), so that a malformed body is a command too. -/

namespace Sys2Proof

/-- The three parties that send requests (00 Terms). -/
inductive Master where
  | clA
  | clB
  | mp
deriving DecidableEq, Repr

/-- The two control links, which alone carry link frames (R126). -/
inductive ControlLink where
  | a
  | b
deriving DecidableEq, Repr

/-- A chain and its line end: FORWARD with LE-F, RETURN with LE-R (00 Terms). -/
inductive Chain where
  | fwd
  | ret
deriving DecidableEq, Repr

/-- How the reading of the serial memory went on LOADING (R199): the memory did not answer, or did not
answer to the end; it gave the bytes State holds; or it gave other bytes (an exchanged or damaged
memory), which are then the memory's bytes from address 0 on. -/
inductive MemReading where
  | noAnswer
  | asHeld
  | other (bytes : List Byte)
deriving DecidableEq, Repr

/-- How a SAVE ends (R206). `noAnswer` carries how many bytes of the image had been written when the
memory stopped answering; it is of use in WRITING alone. -/
inductive SaveOutcome where
  | agrees
  | noAnswer (written : Nat)
  | differs
deriving DecidableEq, Repr

/-- A UART character as received: a byte, or none for a framing error (R184). -/
abbrev UartChar := Option Byte

/-- One constructor for each row of spec/opcode_table.json. -/
inductive Instr where
  /-- RESET (R197); `written` is how many image bytes a SAVE in its WRITING stage had written (R207). -/
  | reset (written : Nat)
  | startingEnd
  | loadEnd (reading : MemReading)
  /-- LINK_FRAME_RECEIVED (R126): the frame at one frame boundary, or none when no frame arrived. -/
  | linkFrameReceived (l : ControlLink) (frame : Option (List Byte))
  /-- MP_MESSAGE_RECEIVED (R184): a stretch of characters received on MP's UART. -/
  | mpMessageReceived (chars : List UartChar)
  | mpCharacterGap
  | unknownKind (m : Master) (kind : Byte) (tag : Byte) (body : List Byte)
  | alive (m : Master) (tag : Byte) (body : List Byte)
  | readQueue (m : Master) (tag : Byte) (body : List Byte)
  | readAbandoned (m : Master) (tag : Byte) (body : List Byte)
  | answer (m : Master) (tag : Byte) (body : List Byte)
  | hold (m : Master) (tag : Byte) (body : List Byte)
  | retrieve (m : Master) (tag : Byte) (body : List Byte)
  | transfer (m : Master) (tag : Byte) (body : List Byte)
  | clear (m : Master) (tag : Byte) (body : List Byte)
  | callout (m : Master) (tag : Byte) (body : List Byte)
  | close (m : Master) (tag : Byte) (body : List Byte)
  | ackAbandoned (m : Master) (tag : Byte) (body : List Byte)
  | readEntry (m : Master) (tag : Byte) (body : List Byte)
  | writeEntry (m : Master) (tag : Byte) (body : List Byte)
  | eraseEntry (m : Master) (tag : Byte) (body : List Byte)
  | readSettings (m : Master) (tag : Byte) (body : List Byte)
  | readStore (m : Master) (tag : Byte) (body : List Byte)
  | writeSetting (m : Master) (tag : Byte) (body : List Byte)
  | save (m : Master) (tag : Byte) (body : List Byte)
  | saveWritingEnd
  | saveEnd (outcome : SaveOutcome)
  | readPoll (m : Master) (tag : Byte) (body : List Byte)
  | writePoll (m : Master) (tag : Byte) (body : List Byte)
  | readAlerts (m : Master) (tag : Byte) (body : List Byte)
  | measure (m : Master) (tag : Byte) (body : List Byte)
  | readLine (m : Master) (tag : Byte) (body : List Byte)
  | readPosts (m : Master) (tag : Byte) (body : List Byte)
  | releasePost (m : Master) (tag : Byte) (body : List Byte)
  | restartLine (m : Master) (tag : Byte) (body : List Byte)
  | rejoin (m : Master) (tag : Byte) (body : List Byte)
  | postRead (m : Master) (tag : Byte) (body : List Byte)
  | postWrite (m : Master) (tag : Byte) (body : List Byte)
  | readCounters (m : Master) (tag : Byte) (body : List Byte)
  | clearCounters (m : Master) (tag : Byte) (body : List Byte)
  | keepAliveExpiry (m : Master)
  | alignmentTimerExpiry (l : ControlLink)
  | messageSent (m : Master)
  | periodicStatus (m : Master)
  | flagDrivenStatus (m : Master)
  | downstreamSuperframe (d : Chain)
  /-- UPSTREAM_SUPERFRAME (R4, R210): the bytes that came back at line end `d`. -/
  | upstreamSuperframe (d : Chain) (bytes : List Byte)
  | overCurrent (d : Chain)
  | settleExpiry (d : Chain)
  | retryExpiry (d : Chain)
  | refindExpiry (d : Chain)
  /-- FORWARD_SUPERFRAME_SEEN (R12): the bytes of a downstream superframe at the return port. -/
  | forwardSuperframeSeen (bytes : List Byte)
  | forwardSeenAgeExpiry
  | probeCounterWrap (d : Chain)
  | pendingClockExpiry (m : Master)
  | escalation (call : Nat)
  | testExpired (call : Nat)
  | preferenceEnd (call : Nat)
  | holdReminder (call : Nat)
  | clearedToneExpiry (call : Nat)
  | calloutLimitExpiry (call : Nat)
  | pollPairDue (entry : Nat) (pos : Nat)
  | cycleTimerExpiry
  | focusTimerExpiry
  | handsetAudioSample (sample : Byte)
deriving DecidableEq, Repr

end Sys2Proof
end

