-- ==== Sys2Proof/Decode.lean ====
section
/-! DEFINITION. The command that a word of the opcode table spells. No row of spec/opcode_table.json gives
bits: a command is an event or a request of the outside, not a word. So no word spells one. -/

namespace Sys2Proof

/-- The command a word of `nbits` bits spells: none, for want of a row with bits (log entry 1). -/
def decodeTableWord (_nbits _w : Nat) : Option Instr := none

end Sys2Proof
end

