-- ==== Sys2Proof/Machine/State.lean ====
section
/-! DEFINITION. The state of the U16C as plain data, block by block (00 Block overview), the messages it
queues, the outcomes' reason types, and the state right after reset. The values of every field after
power-on or RESET are the defaults written at the fields; the rule that gives each is cited there. -/

namespace Sys2Proof.Machine

/-! ### Collections of like things -/

/-- One value for each master. -/
structure PerMaster (α : Type) where
  clA : α
  clB : α
  mp : α
deriving DecidableEq, Repr

/-- One value for each chain or line end. -/
structure PerChain (α : Type) where
  fwd : α
  ret : α
deriving DecidableEq, Repr

/-- One value for each control link. -/
structure PerLink (α : Type) where
  a : α
  b : α
deriving DecidableEq, Repr

/-! ### Names -/

/-- Device states (R197). -/
inductive DeviceState where
  | starting
  | loading
  | running
deriving DecidableEq, Repr

/-- Link states (R123). -/
inductive LinkState where
  | up
  | down
deriving DecidableEq, Repr

/-- Alignment states of LIF-A and LIF-B (R123, R126). -/
inductive AlignState where
  | aligned
  | searching
deriving DecidableEq, Repr

/-- Line modes (R1). -/
inductive LineMode where
  | openLine
  | loop
deriving DecidableEq, Repr

/-- Line-end states (R9). -/
inductive LineState where
  | off
  | feeding
  | discovering
  | running
  | watching
  | failed
deriving DecidableEq, Repr

/-- Post table states (R18). -/
inductive PostState where
  | vacant
  | active
  | quarantined
  | lost
deriving DecidableEq, Repr

/-- Identity statuses (R59). -/
inductive Identity where
  | verified
  | mismatch
  | unchecked
deriving DecidableEq, Repr

/-- The request field of a status word (R8); `none` of the spec is `idle` here. -/
inductive Request where
  | idle
  | emergency
  | service
  | test
deriving DecidableEq, Repr

/-- Call classes (R70). -/
inductive CallClass where
  | emergency
  | service
  | test
  | callout
deriving DecidableEq, Repr

/-- Call states (R72). -/
inductive CallState where
  | waiting
  | connected
  | held
  | alerting
  | clearing
  | severed
deriving DecidableEq, Repr

/-- Clearing stages (R110). -/
inductive ClearStage where
  | tone
  | release
deriving DecidableEq, Repr

/-- Topologies (R22). -/
inductive Topology where
  | down
  | single
  | split
  | rejoining
deriving DecidableEq, Repr

/-- Severities, from lowest to highest (R140). A condition is an optional severity (R156). -/
inductive Severity where
  | info
  | warning
  | major
  | critical
deriving DecidableEq, Repr

/-- Poll modes (R140). -/
inductive PollMode where
  | matching
  | above
  | below
deriving DecidableEq, Repr

/-- Measurement modes (R160). -/
inductive MeasureMode where
  | off
  | single
  | cyclic
  | focused
deriving DecidableEq, Repr

/-- Span classes (R170). -/
inductive SpanClass where
  | unmeasured
  | normal
  | high
  | low
  | unrated
deriving DecidableEq, Repr

/-- Reasons of the INVALID mark (R170, R172). -/
inductive InvalidReason where
  | skipped
  | saturated
  | noCurrent
  | negativeDrop
deriving DecidableEq, Repr

/-- The two turns of rank 5 (R35). -/
inductive Turn where
  | measurement
  | supervision
deriving DecidableEq, Repr

/-- The four tones (R118). -/
inductive Tone where
  | registered
  | noService
  | hold
  | cleared
deriving DecidableEq, Repr

/-- The signalling messages CM places (R30). -/
inductive Signal where
  | connect (slot : Nat)
  | disconnect
  | tone (t : Tone)
  | ring
  | stopRing
deriving DecidableEq, Repr

/-- The messages of LS that wait in the LS message place (R33): rejoin PROBE, CLAIM, re-find DISCOVER. -/
inductive LsKind where
  | probe
  | claim
  | discover
deriving DecidableEq, Repr

/-- The five channels of the cabinet converter (R158). -/
inductive ConverterChannel where
  | forwardV
  | forwardI
  | returnV
  | returnI
  | supplyV
deriving DecidableEq, Repr

/-- Kinds of measurement round (R165). -/
inductive RoundKind where
  | full
  | focused
deriving DecidableEq, Repr

/-- Marks of a round's target (R165). -/
inductive TargetMark where
  | waiting
  | read
  | skipped
deriving DecidableEq, Repr

/-- Kinds of line alert, in the order in which alerts of one event stand (R181). -/
inductive LineAlertKind where
  | breakAlert
  | postSilent
  | tail
  | feedFault
  | length
  | spanSuspect
  | leakage
deriving DecidableEq, Repr

/-- The place of a line alert (R23, R178). -/
inductive AlertPlace where
  | spans (first last : Nat)
  | position (p : Nat)
  | lineEnd (d : Chain)
  | forwardPort
  | chain (d : Chain)
deriving DecidableEq, Repr

/-- Reasons a call record ends for (R88). -/
inductive EndReason where
  | callerCleared
  | callerGone
  | clearedByControl
  | closed
  | noAnswer
  | calloutAbandoned
  | testExpired
deriving DecidableEq, Repr

/-- Reasons of CALL_WITHDRAWN (R83). -/
inductive WithdrawReason where
  | answered (owner : Master)
  | ended
  | notOffered
deriving DecidableEq, Repr

/-- Causes of CALL_UPDATE (R85, R102, R105). -/
inductive UpdateCause where
  | condition
  | degraded
  | renamed
  | upgraded
  | escalated
  | severed
  | noSlot (d : Chain)
  | reminder
deriving DecidableEq, Repr

/-- Causes of ALERT_REPORT (R154). -/
inductive ReportCause where
  | asserted
  | deasserted
  | removed
  | evicted
  | dropped
deriving DecidableEq, Repr

/-- Refusal reasons, in the order of the table of R186. -/
inductive Reason where
  | noSuchCall
  | wrongState
  | alreadyAnswered
  | notPermitted
  | noSlot
  | channelBusy
  | postBusy
  | noPost
  | protectedItem
  | badValue
  | busy
  | timeout
  | linkDown
  | notReady
deriving DecidableEq, Repr

/-- Configuration sources (R198, R199). -/
inductive Source where
  | none
  | defaults
  | corrupt
  | stored
  | storedWithRepairs
deriving DecidableEq, Repr

/-- Stages of a SAVE (R198, R206). -/
inductive SaveStage where
  | idle
  | writing
  | verifying
deriving DecidableEq, Repr

/-- Results of the last SAVE (R198, R206). -/
inductive SaveResult where
  | none
  | done
  | failedNoAnswer
  | failedMismatch
deriving DecidableEq, Repr

/-- The nine event flags (R191), in the order of the STATUS body (R209). -/
inductive EventFlag where
  | queue
  | abandoned
  | posts
  | line
  | alerts
  | directory
  | settings
  | counters
  | store
deriving DecidableEq, Repr

/-- The settings of R202, in the order in which WRITE_SETTING numbers them from 1 (R209). -/
inductive SettingName where
  | lineMode
  | expectedPosts
  | loopResistance
  | highEnter
  | highLeave
  | lowEnter
  | lowLeave
  | leakageThreshold
  | keepAlive
  | escalationTime
  | calloutLimit
  | holdReminder
  | startMode
  | measureInterval
  | pairedSampling
  | offerFilter
  | eventMask
  | siteName
deriving DecidableEq, Repr

/-! ### Configuration (CS) -/

/-- A location record, the content of a DEFINED entry (R51). -/
structure LocationRecord where
  route : List Byte
  carriageway : Nat
  chainage : Nat
  label : List Byte
  cable : Nat
  ret : Option Nat
  serial : Option Serial
deriving DecidableEq, Repr

/-- A location snapshot (R64): the version, and the record or "unnamed" (none). -/
structure Snapshot where
  version : Nat
  record : Option LocationRecord
deriving DecidableEq, Repr

/-- An offer filter (R80): bit p-1 of `positions` for position p; bits 0 to 3 of `classes` for EMERGENCY,
SERVICE, TEST, CALLOUT (R209). -/
structure OfferFilter where
  positions : BitVec 16 := 0xFFFF
  classes : BitVec 4 := 0xF
deriving DecidableEq, Repr

/-- The working settings with their defaults (R202). An event mask has bit i for flag i of the STATUS body. -/
structure Settings where
  lineMode : LineMode := .openLine
  expectedPosts : Nat := 0
  loopResistance : Nat := 560
  highEnter : Nat := 130
  highLeave : Nat := 120
  lowEnter : Nat := 50
  lowLeave : Nat := 60
  leakageThreshold : Nat := 5000
  keepAlive : PerMaster Nat := ⟨2000, 2000, 2000⟩
  escalationTime : Nat := 30
  calloutLimit : Nat := 60
  holdReminder : Nat := 60
  startMode : MeasureMode := .cyclic
  measureInterval : Nat := 60
  pairedSampling : Bool := false
  offerFilter : PerMaster OfferFilter := ⟨{}, {}, {}⟩
  eventMask : PerMaster (BitVec 9) := ⟨0, 0, 0⟩
  /-- UNNAMED, as character codes. -/
  siteName : List Byte := [85, 78, 78, 65, 77, 69, 68]
deriving DecidableEq, Repr

/-- One repair made at load (R200). -/
inductive Repair where
  | entryUnused (p : Nat)
  | pollReplaced (e : Nat)
  | setting (n : SettingName) (m : Option Master)
  | versionRaised
deriving DecidableEq, Repr

/-- The requester of the SAVE in flight (R198, R205). -/
structure SaveRequester where
  master : Master
  tag : Byte
  orphaned : Bool
deriving DecidableEq, Repr

/-- The serial memory's bytes: address and byte, addresses rising, no entry equal to the byte an
unlisted address reads as (R198). -/
structure Memory where
  cells : List Host.Cell := []
deriving DecidableEq, Repr

/-- The configuration store's state (R51, R198, R202). -/
structure ConfigStore where
  settings : Settings := {}
  directory : Vector (Option LocationRecord) 16 := Vector.replicate 16 none
  version : Nat := 0
  source : Source := .none
  repairs : List Repair := []
  stage : SaveStage := .idle
  requester : Option SaveRequester := none
  /-- The image of the SAVE in flight as it stood when the SAVE was taken, and the version it writes. -/
  writing : List Byte := []
  writingVersion : Nat := 0
  lastResult : SaveResult := .none
  /-- Part time and written version at the end of the last SAVE. -/
  lastEnd : Option (Nat × Nat) := none
  saveFails : Nat := 0
  memory : Memory := {}
deriving DecidableEq, Repr

/-! ### Supervision (SP) -/

/-- A poll entry (R140). Target none is ALL. The defaults are the disabled entry. -/
structure PollEntry where
  enabled : Bool := false
  target : Option Nat := some 1
  sensor : Nat := 0
  mode : PollMode := .matching
  mask : Nat := 0
  compare : Nat := 0
  hysteresis : Nat := 0
  severity : Severity := .info
  code : Nat := 0
  interval : Nat := 1
deriving DecidableEq, Repr

/-- A pair: assertion state and next-due time (R144). LISTED or not is read off the alert table (R150). -/
structure Pair where
  entry : Nat
  pos : Nat
  asserted : Bool
  due : Nat
deriving DecidableEq, Repr

/-- A reading in flight on a chain (R146). -/
structure Reading where
  entry : Nat
  pos : Nat
  sensor : Nat
  void : Bool
deriving DecidableEq, Repr

/-- An alert of the alert table (R150). -/
structure Alert where
  entry : Nat
  pos : Nat
  severity : Severity
  code : Nat
  first : Nat
  last : Nat
  stale : Bool
deriving DecidableEq, Repr

/-- The supervision poller's state (R140, R144, R146, R150, R156). -/
structure Poller where
  table : Vector PollEntry 32 := Vector.replicate 32 {}
  pairs : List Pair := []
  inflight : PerChain (Option Reading) := ⟨none, none⟩
  alerts : List Alert := []
  change : Nat := 0
  conditions : Vector (Option Severity) 16 := Vector.replicate 16 none
  drops : Nat := 0
deriving DecidableEq, Repr

/-! ### Line measurement (LM) -/

/-- A latest post line value (R159). -/
structure LatestValue where
  value : Nat
  time : Nat
  chain : Chain
  usable : Bool
deriving DecidableEq, Repr

/-- The four thresholds as clamped for a classification (R170, R175). -/
structure Thresholds where
  highEnter : Nat
  highLeave : Nat
  lowEnter : Nat
  lowLeave : Nat
deriving DecidableEq, Repr

/-- A span table entry (R170). -/
structure Span where
  r : Option Nat := none
  e : Option Nat := none
  ratio : Option Nat := none
  cls : SpanClass := .unmeasured
  invalid : Option InvalidReason := none
  abnormal : Nat := 0
  suspect : Bool := false
  chain : Option Chain := none
  round : Option Nat := none
  used : Option Thresholds := none
deriving DecidableEq, Repr

/-- A target of a round (R165). `paired` is the I code sampled when its read was placed. -/
structure Target where
  pos : Nat
  mark : TargetMark
  volt : Nat
  cur : Nat
  paired : Option Nat
deriving DecidableEq, Repr

/-- The record of the round in flight (R165). `spans` are the spans of the round not yet computed. -/
structure Round where
  chain : Chain
  kind : RoundKind
  number : Nat
  paired : Bool
  v0 : Nat
  i0 : Nat
  targets : List Target
  spans : List Nat
  inFlight : Option Nat
deriving DecidableEq, Repr

/-- A leakage record (R177). -/
structure Leakage where
  value : Nat
  round : Nat
  time : Nat
deriving DecidableEq, Repr

/-- The cycle timer: its last start and its expiry time (R160, R163). -/
structure CycleTimer where
  start : Nat
  expiry : Nat
deriving DecidableEq, Repr

/-- One value for each converter channel (R158). -/
structure PerConverter (α : Type) where
  forwardV : α
  forwardI : α
  returnV : α
  returnI : α
  supplyV : α
deriving DecidableEq, Repr

/-- The line monitor's state (R158 to R160, R170, R177, R179). A sample is its code and its part time. -/
structure LineMonitor where
  mode : MeasureMode := .off
  pendingMode : Option MeasureMode := none
  fullReq : PerChain Bool := ⟨false, false⟩
  focusReq : PerChain Bool := ⟨false, false⟩
  cycle : Option CycleTimer := none
  focus : Option Nat := none
  lastChain : Chain := .ret
  round : Option Round := none
  roundNo : Nat := 0
  samples : PerConverter (Option (Nat × Nat)) := ⟨none, none, none, none, none⟩
  volts : Vector (Option LatestValue) 16 := Vector.replicate 16 none
  amps : Vector (Option LatestValue) 16 := Vector.replicate 16 none
  spans : Vector Span 17 := Vector.replicate 17 {}
  leakage : PerChain (Option Leakage) := ⟨none, none⟩
  change : Nat := 0
deriving DecidableEq, Repr

/-! ### The post line (LS, LE-F, LE-R) -/

/-- The fields of a status word (R8, R210). -/
structure StatusWord where
  hookOff : Bool
  request : Request
  ringing : Bool
  dir : Chain
  seq : BitVec 2
deriving DecidableEq, Repr

/-- A post table entry (R18), with the mark that the next valid word is the post's first (R14). -/
structure Post where
  state : PostState := .vacant
  serving : Option Chain := none
  serial : Option Serial := none
  kind : Option Byte := none
  identity : Identity := .unchecked
  score : Nat := 0
  cleanProbes : Nat := 0
  silence : Nat := 0
  lastWord : Option StatusWord := none
  releaseMark : Bool := false
  firstNext : Bool := false
deriving DecidableEq, Repr

/-- The break record (R21). -/
structure BreakRecord where
  first : Nat
  last : Nat
  time : Nat
deriving DecidableEq, Repr

/-- A line alert of LS or LM (R23, R178). `fresh` marks one raised in the event under way: the model's
own, clear between events (R181 orders the alerts of one event by kind and place). -/
structure LineAlert where
  kind : LineAlertKind
  place : AlertPlace
  time : Nat
  fresh : Bool
deriving DecidableEq, Repr

/-- The line supervisor's state (R1, R18, R21 to R23, R195). -/
structure LineSupervisor where
  mode : LineMode := .openLine
  n : Nat := 0
  loopUnusable : Bool := false
  posts : Vector Post 16 := Vector.replicate 16 {}
  breakRec : Option BreakRecord := none
  topology : Topology := .down
  rejoinPending : Bool := false
  alerts : List LineAlert := []
  postsChange : Nat := 0
deriving DecidableEq, Repr

/-- A signalling message waiting in a FIFO (R33, R36). In this and the next three, `flying` marks the
message whose attempt is under way and not yet judged (R34). -/
structure SigMsg where
  pos : Nat
  msg : Signal
  attempts : Nat := 0
  flying : Bool := false
deriving DecidableEq, Repr

/-- A message waiting in a one-place class: its target position and attempt count (R33). -/
structure Waiting where
  pos : Nat
  attempts : Nat := 0
  flying : Bool := false
deriving DecidableEq, Repr

/-- A SENSE read waiting (R33). -/
structure SenseMsg where
  pos : Nat
  sensor : Nat
  attempts : Nat := 0
  flying : Bool := false
deriving DecidableEq, Repr

/-- An LS message waiting (R33). -/
structure LsMsg where
  kind : LsKind
  pos : Nat
  attempts : Nat := 0
  flying : Bool := false
deriving DecidableEq, Repr

/-- The control message of a downstream superframe, by the place it was taken from (R30, R34). An access
also carries its placing order, which tells it from a later one of the same master. -/
inductive Sent where
  | idle
  | discovery (p : Nat)
  | signalling (p : Nat) (msg : Signal)
  | access (m : Master) (p item : Nat) (write : Option Nat) (order : Nat)
  | quarantineProbe (p : Nat)
  | line (p : Nat)
  | sense (p sensor : Nat)
  | ls (kind : LsKind) (p : Nat)
deriving DecidableEq, Repr

/-- The state of one line end (R9 to R13, R17, R33, R40). -/
structure LineEnd where
  state : LineState := .off
  overRun : Nat := 0
  settle : Option Nat := none
  retry : Option Nat := none
  refind : Option Nat := none
  age : Nat := 0
  ageDue : Bool := false
  found : Nat := 0
  discovery : Option Waiting := none
  signalling : List SigMsg := []
  probeDue : Bool := false
  probeCounter : Nat := 0
  probePtr : Option Nat := none
  probeWrapped : Bool := false
  measure : Option Waiting := none
  sense : Option SenseMsg := none
  lsMsg : Option LsMsg := none
  turn : Turn := .supervision
  sent : Option Sent := none
  statusFails : Nat := 0
  respFails : Nat := 0
deriving DecidableEq, Repr

/-! ### Calls (CM) and the voice crosspoint (VX) -/

/-- A preference of a WAITING call: TARGET, or LAST_OWNER with its end time (R70, R82). -/
inductive Preference where
  | target (m : Master)
  | lastOwner (m : Master) (until_ : Nat)
deriving DecidableEq, Repr

/-- The eight flags of a call record (R71). -/
structure CallFlags where
  escalated : Bool := false
  rescued : Bool := false
  reconnected : Bool := false
  overflow : Bool := false
  transferred : Bool := false
  renamed : Bool := false
  degraded : Bool := false
  everConnected : Bool := false
deriving DecidableEq, Repr

/-- A call record (R70), with the clearing stage and cleared-tone timer of R110, the reminder base of
R105 and the mark that the next first word is the one after a resumption (R91). -/
structure Call where
  number : Nat
  cls : CallClass
  pos : Nat
  serial : Serial
  state : CallState
  arrival : Nat
  timer : Nat
  hookOff : Bool
  offer : PerMaster Bool
  owner : Option Master
  lastOwner : Option Master
  pref : Option Preference
  slot : Option (Chain × Nat)
  channel : Option Nat
  snapshot : Snapshot
  condition : Option Severity
  flags : CallFlags
  stage : Option ClearStage
  toneTimer : Option Nat
  reminderBase : Option Nat
  resumed : Bool
deriving DecidableEq, Repr

/-- An entry of the abandoned-call list (R94). -/
structure Abandoned where
  number : Nat
  pos : Nat
  name : Snapshot
  cls : CallClass
  arrival : Nat
  ended : Nat
  reason : EndReason
deriving DecidableEq, Repr

/-- The call manager's state (R69). -/
structure CallManager where
  queue : List Call := []
  abandoned : List Abandoned := []
  lastNumber : Nat := 0
  change : Nat := 0
  marks : Vector (Option Serial) 16 := Vector.replicate 16 none
  overflow : Nat := 0
deriving DecidableEq, Repr

/-- What holds a link channel: the call, with the chain and slot joined to it (R119). -/
structure Join where
  call : Nat
  chain : Chain
  slot : Nat
deriving DecidableEq, Repr

/-- The silence code of the voice bytes (R208). -/
def silenceCode : Byte := 213

/-- The voice crosspoint's state (R119, R121): place i holds slot or channel i+1. -/
structure Crosspoint where
  pools : PerChain (Vector (Option Nat) 6) := ⟨Vector.replicate 6 none, Vector.replicate 6 none⟩
  mapA : Vector (Option Join) 8 := Vector.replicate 8 none
  mapB : Vector (Option Join) 8 := Vector.replicate 8 none
  mapMp : Vector (Option Join) 1 := Vector.replicate 1 none
  upVoice : PerChain (List Byte) := ⟨List.replicate 48 silenceCode, List.replicate 48 silenceCode⟩
deriving DecidableEq, Repr

/-! ### Messages to the masters -/

/-- The name of a post (R61): its position, its location record or "unnamed", its identity status. -/
structure PostName where
  pos : Nat
  record : Option LocationRecord
  identity : Identity
deriving DecidableEq, Repr

/-- The name of an end of a span (R62). -/
inductive EndName where
  | forwardPort
  | post (name : PostName)
  | returnPort
deriving DecidableEq, Repr

/-- The name of a span: its near end and its far end (R62). -/
structure SpanName where
  near : EndName
  far : EndName
deriving DecidableEq, Repr

/-- An end or a post in the reduced form of R180: position, identity status, cable and return distance;
a port end carries its position alone. -/
structure ReducedName where
  pos : Nat
  identity : Option Identity
  cable : Option Nat
  ret : Option Nat
deriving DecidableEq, Repr

/-- A call record as READ_QUEUE reports it (R77). -/
structure CallReport where
  number : Nat
  cls : CallClass
  pos : Nat
  state : CallState
  arrival : Nat
  owner : Option Master
  lastOwner : Option Master
  offer : PerMaster Bool
  slot : Option (Chain × Nat)
  channel : Option Nat
  flags : CallFlags
  condition : Option Severity
  snapshot : Snapshot
  identity : Identity
deriving DecidableEq, Repr

/-- A pair's assertion state as READ_POLL reports it (R143, R150). -/
inductive AssertionReport where
  | clear
  | assertedListed
  | assertedUnlisted
deriving DecidableEq, Repr

/-- A pair as READ_POLL reports it (R143). -/
structure PairReport where
  pos : Nat
  state : AssertionReport
  due : Nat
deriving DecidableEq, Repr

/-- An alert as READ_ALERTS reports it (R155). -/
structure AlertEntry where
  alert : Alert
  name : PostName
deriving DecidableEq, Repr

/-- The sixteen counters (R193). -/
structure Counters where
  statusFails : PerChain Nat
  respFails : PerChain Nat
  frameFails : PerMaster Nat
  overruns : PerMaster Nat
  lost : PerMaster Nat
  abandonedOverflows : Nat
  alertDrops : Nat
  saveFails : Nat
deriving DecidableEq, Repr

/-- A post table entry as READ_POSTS reports it (R195). -/
structure PostReport where
  pos : Nat
  state : PostState
  serving : Option Chain
  serial : Option Serial
  kind : Option Byte
  identity : Identity
  name : Option PostName
  score : Nat
  cleanProbes : Nat
  silence : Nat
  releaseMark : Bool
  lastWord : Option StatusWord
  condition : Option Severity
deriving DecidableEq, Repr

/-- A span as section SPANS reports it (R181). -/
structure SpanReport where
  span : Nat
  entry : Span
  name : Option (ReducedName × ReducedName)
deriving DecidableEq, Repr

/-- The name of an alert's place as section ALERTS reports it (R180, R181); a place with a span that does not exist
has no name (R62), and the chain of LEAKAGE has none beside its place. -/
inductive PlaceName where
  | post (name : ReducedName)
  | span (ends : Option (ReducedName × ReducedName))
  | port (name : ReducedName)
  | chain
deriving DecidableEq, Repr

/-- A line alert as section ALERTS reports it (R181). -/
structure LineAlertReport where
  kind : LineAlertKind
  place : AlertPlace
  time : Nat
  name : PlaceName
deriving DecidableEq, Repr

/-- The latest values of a position as section VALUES reports them (R181). -/
structure ValueReport where
  pos : Nat
  volt : Option LatestValue
  cur : Option LatestValue
deriving DecidableEq, Repr

/-- Section SUMMARY of READ_LINE (R180). -/
structure LineSummary where
  mode : LineMode
  n : Nat
  loopUnusable : Bool
  topology : Topology
  rejoinPending : Bool
  b : Nat
  r : Nat
  states : PerChain LineState
  breakRec : Option (BreakRecord × Option (ReducedName × ReducedName))
  measureMode : MeasureMode
  pendingMode : Option MeasureMode
  round : Option (Chain × RoundKind × Nat)
  roundNo : Nat
  samples : PerConverter (Option (Nat × Nat))
  leakage : PerChain (Option Leakage)
  alerts : Nat
deriving DecidableEq, Repr

/-- A section of READ_LINE (R180, R181). -/
inductive LineSection where
  | summary (x : LineSummary)
  | spans (xs : List SpanReport)
  | alerts (xs : List LineAlertReport)
  | values (xs : List ValueReport)
deriving DecidableEq, Repr

/-- The store record as READ_STORE reports it, with the working directory version (R198, R204). -/
structure StoreReport where
  source : Source
  repairs : List Repair
  stage : SaveStage
  requester : Option SaveRequester
  lastResult : SaveResult
  lastEnd : Option (Nat × Nat)
  version : Nat
deriving DecidableEq, Repr

/-- A setting's value as stored, for the DONE of WRITE_SETTING (R203). -/
inductive SettingValue where
  | number (v : Nat)
  | lineMode (v : LineMode)
  | mode (v : MeasureMode)
  | onOff (v : Bool)
  | filter (v : OfferFilter)
  | mask (v : BitVec 9)
  | text (v : List Byte)
deriving DecidableEq, Repr

/-- What the body of a DONE carries, by the rule that owns the request. -/
inductive Done where
  | empty
  | queuePage (count change : Nat) (page : List CallReport)
  | abandonedPage (count overflow : Nat) (page : List Abandoned)
  | answered (number : Nat) (chain : Chain) (slot : Nat)
  | slot (chain : Chain) (slot : Nat)
  | entry (pos : Nat) (record : Option LocationRecord) (version : Nat) (identity : Identity) (serial : Option Serial)
  | version (v : Nat)
  | settings (s : Settings) (mode : LineMode) (n : Nat)
  | store (r : StoreReport)
  | setting (name : SettingName) (m : Option Master) (value : SettingValue)
  | poll (e : PollEntry)
  | pollPage (e : PollEntry) (pairs : List PairReport)
  | alertsPage (count change drops : Nat) (page : List AlertEntry)
  | measure (mode : MeasureMode) (pending : Option MeasureMode)
  | line (change : Nat) (x : LineSection)
  | posts (change : Nat) (mode : LineMode) (n b r : Nat) (page : List PostReport)
  | counters (c : Counters)
deriving DecidableEq, Repr

/-- The result an item access ends with (R47, R48). -/
inductive AccessResult where
  | value (v : Nat)
  | done
  | timeout
  | noPost
deriving DecidableEq, Repr

/-- What a COMPLETION carries beside its tag (R48, R206). -/
inductive Completion where
  | access (write : Bool) (pos item : Nat) (result : AccessResult)
  | save (result : SaveResult) (version : Nat)
deriving DecidableEq, Repr

/-- CALL_OFFER's fields (R83, R209). -/
structure Offer where
  number : Nat
  cls : CallClass
  pos : Nat
  identity : Identity
  condition : Option Severity
  lastOwner : Option Master
  offer : PerMaster Bool
  flags : CallFlags
  arrival : Nat
  snapshot : Snapshot
deriving DecidableEq, Repr

/-- CALL_UPDATE's fields (R85). -/
structure Update where
  number : Nat
  cause : UpdateCause
  state : CallState
  cls : CallClass
  flags : CallFlags
  condition : Option Severity
  owner : Option Master
  lastOwner : Option Master
  snapshot : Snapshot
  identity : Identity
deriving DecidableEq, Repr

/-- ALERT_REPORT's fields (R154). -/
structure Report where
  cause : ReportCause
  entry : Nat
  pos : Nat
  name : PostName
  severity : Severity
  code : Nat
  first : Nat
  value : Nat
  drops : Nat
  change : Nat
deriving DecidableEq, Repr

/-- STATUS's fields (R189). -/
structure Status where
  dev : DeviceState
  source : Source
  topology : Topology
  rejoinPending : Bool
  loopUnusable : Bool
  waiting : Nat
  connected : Nat
  flags : BitVec 9
  version : Nat
  time : Nat
  siteName : List Byte
deriving DecidableEq, Repr

/-- A message bound for a master (R186, R188, R189). -/
inductive OutMsg where
  | done (tag : Byte) (result : Done)
  | accepted (tag : Byte)
  | refused (tag : Byte) (reason : Reason) (owner : Option Master)
  | callOffer (o : Offer)
  | callWithdrawn (number : Nat) (reason : WithdrawReason)
  | callUpdate (u : Update)
  | callEnded (number : Nat) (cls : CallClass) (pos : Nat) (reason : EndReason) (time : Nat)
  | completion (tag : Byte) (c : Completion)
  | alertReport (r : Report)
  | status (s : Status)
deriving DecidableEq, Repr

/-- A message in a transmit queue, with how many of its bytes have been sent (R187). -/
structure TxEntry where
  msg : OutMsg
  sent : Nat
deriving DecidableEq, Repr

/-! ### Link interfaces (LIF) -/

/-- A message as received: kind, tag, body (R182). -/
structure Message where
  kind : Byte
  tag : Byte
  body : List Byte
deriving DecidableEq, Repr

/-- A master's outstanding item access (R33, R46, R47, R49). `write` is the value of an ITEM_WRITE.
`chain` is the line end whose access place holds it; `clock` is the PENDING clock, none when stopped. -/
structure Access where
  tag : Byte
  pos : Nat
  item : Nat
  write : Option Nat
  chain : Chain
  order : Nat
  clock : Option Nat
  fails : Nat
  orphaned : Bool
deriving DecidableEq, Repr

/-- The state of one link interface (R123, R185, R187, R189 to R191, R193). -/
structure Lif where
  link : LinkState := .down
  deadline : Option Nat := none
  lastTake : Option Nat := none
  rx : List Message := []
  tx : List TxEntry := []
  statusPending : Bool := false
  statusDue : Bool := false
  periodic : Option Nat := none
  /-- Bit i is flag i of the STATUS body (R209). -/
  flags : BitVec 9 := 0
  access : Option Access := none
  frameFails : Nat := 0
  overruns : Nat := 0
  lost : Nat := 0
deriving DecidableEq, Repr

/-- Frame alignment and reception of one control link (R123, R126, R183). -/
structure Alignment where
  state : AlignState := .searching
  misses : Nat := 0
  timer : Option Nat := none
  candidate : Bool := false
  assembly : List Byte := []
  /-- Eight channels of eight samples, as the frame last taken carried them. -/
  voice : List Byte := List.replicate 64 silenceCode
  boundaryTaken : Bool := false
deriving DecidableEq, Repr

/-- MP's UART reception and handset audio (R184, R208). `heard` is the part time of the last character received. -/
structure MpPort where
  assembly : Option (List Byte) := none
  heard : Nat := 0
  voiceIn : List Byte := List.replicate 8 silenceCode
  voiceOut : List Byte := []
  credit : Nat := 0
deriving DecidableEq, Repr

/-- Pins (11). `converter` is the code the next sample of each channel reads and `samples` counts the
samples taken: the model's own fields for the converter's free values (log entry 3). -/
structure Pins where
  converter : PerConverter Code := ⟨0, 0, 0, 0, 0⟩
  samples : Nat := 0
  linkOut : PerLink (List Byte) := ⟨[], []⟩
  mpOut : List Byte := []
  lineOut : PerChain (List Byte) := ⟨[], []⟩
  audioOut : Byte := silenceCode
deriving DecidableEq, Repr

/-- Marks of the event under way, clear between events: LINE was set, POSTS was set, LS has told LM that
the topology has changed (R169, R179, R195). The model's own (log entry 7). -/
structure EventMarks where
  line : Bool := false
  posts : Bool := false
  topo : Bool := false
deriving DecidableEq, Repr

/-! ### The state -/

/-- Everything the device holds, block by block, with the queue of commands that wait. -/
structure State where
  dev : DeviceState := .starting
  time : Nat := 0
  lif : PerMaster Lif := ⟨{}, {}, {}⟩
  align : PerLink Alignment := ⟨{}, {}⟩
  mp : MpPort := {}
  cm : CallManager := {}
  vx : Crosspoint := {}
  ls : LineSupervisor := {}
  le : PerChain LineEnd := ⟨{}, {}⟩
  cs : ConfigStore := {}
  sp : Poller := {}
  lm : LineMonitor := {}
  pins : Pins := {}
  /-- Accesses placed so far: the placing order of R33. -/
  placed : Nat := 0
  ev : EventMarks := {}
  pending : List Instr := []
deriving DecidableEq, Repr

/-- The state after power-on or RESET (R197 and the rule cited at each field). -/
def State.reset : State := {}

/-- The reasons a command could stop the device with. The spec gives none: every request is answered
and every event has its effect, so there is no constructor and nothing raises one. -/
inductive Fault where
deriving DecidableEq, Repr

/-- The reasons a command is refused a meaning for. -/
inductive Refusal where
  /-- Raised by an arm of `exec` whose command has no meaning yet; safe, since the model stops there. -/
  | notModelled (mnemonic : String)
deriving DecidableEq, Repr

end Sys2Proof.Machine
end

