-- ==== Sys2Proof/Machine/Memory.lean ====
section
/-! DEFINITION. The 8 KiB serial memory beside the device (R198, chapter Formats and Signals): reads,
writes and the canonical form of its cells. -/

namespace Sys2Proof.Machine

/-- The size of the serial memory in bytes (R198). -/
def memorySize : Nat := 8192

/-- What a byte nothing has written reads as: DESIGN CHOICE, log entry 6. -/
def blankByte : Byte := 255

/-- The byte of a list of cells at an address. -/
def cellAt (a : Nat) : List Host.Cell → Byte
  | [] => blankByte
  | c :: cs => if c.1 = a then c.2 else cellAt a cs

/-- One byte into a list of cells with rising addresses; a byte that a blank address reads as leaves no cell. -/
def putCell (a : Nat) (b : Byte) : List Host.Cell → List Host.Cell
  | [] => if b = blankByte then [] else [(a, b)]
  | c :: cs =>
    if a < c.1 then (if b = blankByte then c :: cs else (a, b) :: c :: cs)
    else if a = c.1 then (if b = blankByte then cs else (a, b) :: cs)
    else c :: putCell a b cs

/-- Do the cells stand at rising addresses from `lo` on, none of them blank? -/
def cellsWf (lo : Nat) : List Host.Cell → Bool
  | [] => true
  | c :: cs => lo ≤ c.1 && c.1 < memorySize && c.2 != blankByte && cellsWf (c.1 + 1) cs

/-- The canonical form: addresses rising and inside the memory, no cell blank. -/
def Memory.wf (m : Memory) : Bool := cellsWf 0 m.cells

/-- Read one byte. -/
def Memory.read (m : Memory) (a : Nat) : Byte := cellAt a m.cells

/-- Write one byte; an address beyond the memory's size does not exist and stores nothing. -/
def Memory.write (a : Nat) (b : Byte) (m : Memory) : Memory :=
  if a < memorySize then { cells := putCell a b m.cells } else m

/-- Write a run of bytes from an address on. -/
def Memory.writeRun : Nat → List Byte → Memory → Memory
  | _, [], m => m
  | a, b :: bs, m => Memory.writeRun (a + 1) bs (m.write a b)

/-- Read a run of bytes. -/
def Memory.readRun (m : Memory) (a n : Nat) : List Byte :=
  (List.range n).map fun i => m.read (a + i)

end Sys2Proof.Machine
end

