-- ==== Sys2Proof/Machine/Bytes.lean ====
section
/-! DEFINITION. Numbers and texts as bytes, and the 16-bit check (chapter Formats and Signals, R213). -/

namespace Sys2Proof.Machine

/-- The number a run of bytes holds, most significant byte first. -/
def fromBytes (bs : List Byte) : Nat :=
  bs.foldl (fun acc b => acc * 256 + b.toNat) 0

/-- A number in `k` bytes, most significant byte first, modulo 256^k. -/
def toBytes : Nat → Nat → List Byte
  | 0, _ => []
  | k + 1, v => toBytes k (v / 256) ++ [BitVec.ofNat 8 v]

/-- The bytes `from_` to `from_ + len - 1` of a run. -/
def slice (from_ len : Nat) (bs : List Byte) : List Byte :=
  (bs.drop from_).take len

/-- One byte of a run, 0 beyond its end. -/
def byteAt (bs : List Byte) (i : Nat) : Byte :=
  bs.getD i 0

/-- The number in the bytes `from_` to `from_ + len - 1` of a run. -/
def numAt (from_ len : Nat) (bs : List Byte) : Nat :=
  fromBytes (slice from_ len bs)

/-! ### The frame check (R213) -/

/-- One data bit into the check register. -/
def checkBit (reg : BitVec 16) (bit : Bool) : BitVec 16 :=
  if reg.getLsbD 15 == bit then reg <<< 1 else (reg <<< 1) ^^^ 0x8005#16

/-- One byte into the check register, most significant bit first. -/
def checkByte (reg : BitVec 16) (b : Byte) : BitVec 16 :=
  [7, 6, 5, 4, 3, 2, 1, 0].foldl (fun r i => checkBit r (b.getLsbD i)) reg

/-- The check over a run of bytes. -/
def checkOf (bs : List Byte) : BitVec 16 :=
  bs.foldl checkByte 0

/-- The check's two bytes, most significant first. -/
def checkBytes (bs : List Byte) : List Byte :=
  toBytes 2 (checkOf bs).toNat

/-- A run of bytes followed by its check. -/
def withCheck (bs : List Byte) : List Byte :=
  bs ++ checkBytes bs

/-- Whether a run of bytes ends in the check over the bytes before. -/
def passesCheck (bs : List Byte) : Bool :=
  2 ≤ bs.length && checkBytes (bs.take (bs.length - 2)) == bs.drop (bs.length - 2)

/-! ### Text fields -/

/-- The characters a text may hold: A to Z, 0 to 9, space, hyphen (R52). -/
def textChar (b : Byte) : Bool :=
  (65 ≤ b.toNat && b.toNat ≤ 90) || (48 ≤ b.toNat && b.toNat ≤ 57) || b.toNat == 32 || b.toNat == 45

/-- The text rules of R52 for a field of `lo` to `hi` characters. -/
def validText (lo hi : Nat) (t : List Byte) : Bool :=
  lo ≤ t.length && t.length ≤ hi && t.all textChar && t.any (fun b => b.toNat != 32)

/-- A text field of `places` character places: length byte, characters, then 0 (chapter 11). -/
def textBytes (places : Nat) (t : List Byte) : List Byte :=
  BitVec.ofNat 8 t.length :: (t ++ List.replicate (places - t.length) 0)

/-- The text a field of `places` character places holds; none when its length does not fit or a place
beyond the length is not 0, in a request (log entry 17) as in a stored image (DESIGN CHOICE, log entry 45). -/
def textOf (places : Nat) (field : List Byte) : Option (List Byte) :=
  let len := (byteAt field 0).toNat
  if len ≤ places && ((field.drop (1 + len)).take (places - len)).all (· == 0) then
    some (slice 1 len field)
  else none

end Sys2Proof.Machine
end

