-- ==== Sys2Proof/Machine/Ops.lean ====
section
/-! DEFINITION. Named reads and updates of the state that every block uses, and the fixed times. -/

namespace Sys2Proof.Machine

/-! ### Fixed times and sizes -/

/-- Length of STARTING, ms (R197). -/
def startingTime : Nat := 5
/-- Settle time of FEEDING, ms (R10). -/
def settleTime : Nat := 250
/-- Retry time of FAILED, ms (R11). -/
def retryTime : Nat := 30000
/-- Re-find period of RUNNING, ms (R17). -/
def refindTime : Nat := 10000
/-- Period of STATUS, ms (R190). -/
def statusPeriod : Nat := 1000
/-- Alignment timer's end, ms (R127). -/
def alignmentTime : Nat := 50
/-- Waiting time of a TEST call, ms (R87). -/
def testTime : Nat := 60000
/-- Length of a LAST_OWNER preference, ms (R82). -/
def preferenceTime : Nat := 10000
/-- Length of the cleared tone, ms (R110). -/
def clearedToneTime : Nat := 3000
/-- Focus period, ms (R163). -/
def focusTime : Nat := 5000
/-- Longest silence within a message on MP's UART, ms (R184). -/
def gapTime : Nat := 5
/-- Places of a transmit queue (R187). -/
def txPlaces : Nat := 32
/-- Places of a receive queue (R185). -/
def rxPlaces : Nat := 4
/-- Superframes a PENDING clock runs (R47). -/
def pendingTime : Nat := 32

/-! ### Like things -/

def masters : List Master := [.clA, .clB, .mp]
def chains : List Chain := [.fwd, .ret]
/-- Positions 1 to 16 (R2). -/
def positions : List Nat := [1, 2, 3, 4, 5, 6, 7, 8, 9, 10, 11, 12, 13, 14, 15, 16]

def PerMaster.get {α : Type} (x : PerMaster α) : Master → α
  | .clA => x.clA
  | .clB => x.clB
  | .mp => x.mp

def PerMaster.set {α : Type} (x : PerMaster α) (m : Master) (v : α) : PerMaster α :=
  match m with
  | .clA => { x with clA := v }
  | .clB => { x with clB := v }
  | .mp => { x with mp := v }

def PerMaster.ofFn {α : Type} (f : Master → α) : PerMaster α :=
  ⟨f .clA, f .clB, f .mp⟩

def PerChain.get {α : Type} (x : PerChain α) : Chain → α
  | .fwd => x.fwd
  | .ret => x.ret

def PerChain.set {α : Type} (x : PerChain α) (d : Chain) (v : α) : PerChain α :=
  match d with
  | .fwd => { x with fwd := v }
  | .ret => { x with ret := v }

def PerLink.get {α : Type} (x : PerLink α) : ControlLink → α
  | .a => x.a
  | .b => x.b

def PerLink.set {α : Type} (x : PerLink α) (l : ControlLink) (v : α) : PerLink α :=
  match l with
  | .a => { x with a := v }
  | .b => { x with b := v }

def PerConverter.get {α : Type} (x : PerConverter α) : ConverterChannel → α
  | .forwardV => x.forwardV
  | .forwardI => x.forwardI
  | .returnV => x.returnV
  | .returnI => x.returnI
  | .supplyV => x.supplyV

def PerConverter.set {α : Type} (x : PerConverter α) (c : ConverterChannel) (v : α) : PerConverter α :=
  match c with
  | .forwardV => { x with forwardV := v }
  | .forwardI => { x with forwardI := v }
  | .returnV => { x with returnV := v }
  | .returnI => { x with returnI := v }
  | .supplyV => { x with supplyV := v }

/-- Place p of a table numbered from 1; the value `d` outside it. -/
def at1 {α : Type} {n : Nat} (v : Vector α n) (p : Nat) (d : α) : α :=
  if p = 0 then d else v.getD (p - 1) d

/-- A table numbered from 1 with place p replaced; unchanged when p lies outside it. -/
def put1 {α : Type} {n : Nat} (v : Vector α n) (p : Nat) (x : α) : Vector α n :=
  if p = 0 then v else v.setIfInBounds (p - 1) x

/-- The master behind a control link. -/
def linkMaster : ControlLink → Master
  | .a => .clA
  | .b => .clB

/-- The control link of a master; MP has none. -/
def masterLink : Master → Option ControlLink
  | .clA => some .a
  | .clB => some .b
  | .mp => none

def otherChain : Chain → Chain
  | .fwd => .ret
  | .ret => .fwd

/-- A number 0 to 255 that wraps (R69, R150, R179, R195). -/
def wrap255 (v : Nat) : Nat := (v + 1) % 256

/-- A number 0 to 65535 that goes from its top to 1 (R57, R165). -/
def wrap65535 (v : Nat) : Nat := if v ≥ 65535 then 1 else v + 1

/-- A number brought into a range (00 Conventions, Clamping). -/
def clamp (lo hi v : Nat) : Nat := max lo (min hi v)

/-! ### Parts of the state -/

def State.lifOf (s : State) (m : Master) : Lif := s.lif.get m

def State.modLif (m : Master) (f : Lif → Lif) (s : State) : State :=
  { s with lif := s.lif.set m (f (s.lif.get m)) }

def State.alignOf (s : State) (l : ControlLink) : Alignment := s.align.get l

def State.modAlign (l : ControlLink) (f : Alignment → Alignment) (s : State) : State :=
  { s with align := s.align.set l (f (s.align.get l)) }

def State.leOf (s : State) (d : Chain) : LineEnd := s.le.get d

def State.modLe (d : Chain) (f : LineEnd → LineEnd) (s : State) : State :=
  { s with le := s.le.set d (f (s.le.get d)) }

/-- The post table entry of position p; a VACANT entry outside 1 to 16. -/
def State.post (s : State) (p : Nat) : Post := at1 s.ls.posts p {}

def State.modPost (p : Nat) (f : Post → Post) (s : State) : State :=
  { s with ls := { s.ls with posts := put1 s.ls.posts p (f (s.post p)) } }

/-- The directory entry of position p, none when UNUSED. -/
def State.entry (s : State) (p : Nat) : Option LocationRecord := at1 s.cs.directory p none

/-- The condition SP holds for position p (R156). -/
def State.conditionOf (s : State) (p : Nat) : Option Severity := at1 s.sp.conditions p none

/-- The release mark of position p (R89). -/
def State.markOf (s : State) (p : Nat) : Option Serial := at1 s.cm.marks p none

def State.setMark (p : Nat) (v : Option Serial) (s : State) : State :=
  { s with cm := { s.cm with marks := put1 s.cm.marks p v } }

def State.linkUp (s : State) (m : Master) : Bool := (s.lifOf m).link == .up

/-- The live record with a call number (R78). -/
def State.callOf (s : State) (num : Nat) : Option Call := s.cm.queue.find? (·.number == num)

/-- The live record of a position (R69). -/
def State.callAt (s : State) (p : Nat) : Option Call := s.cm.queue.find? (·.pos == p)

def State.setQueue (q : List Call) (s : State) : State := { s with cm := { s.cm with queue := q } }

/-- The record with a call number, changed in its place. -/
def State.modCall (num : Nat) (f : Call → Call) (s : State) : State :=
  s.setQueue (s.cm.queue.map fun c => if c.number == num then f c else c)

/-- Does the position belong to the 16 of the line (R2)? -/
def validPos (p : Nat) : Bool := 1 ≤ p && p ≤ 16

/-- Whether a line end exchanges superframes (R3). -/
def LineState.active : LineState → Bool
  | .discovering | .running => true
  | _ => false

/-- Whether the feed of a line end is on (R9). -/
def LineState.feedOn : LineState → Bool
  | .feeding | .discovering | .running => true
  | _ => false

/-- The outcome of a command that goes on with a next state. -/
def done (s : State) : Host.Outcome State Fault Refusal := .next s

end Sys2Proof.Machine
end

