-- ==== Sys2Proof/Machine/Wire.lean ====
section
/-! DEFINITION. The byte layouts of messages, superframes and link frames (chapter Formats and Signals). -/

namespace Sys2Proof.Machine

/-! ### Codes (R209) -/

def masterCode : Option Master → Nat
  | none => 0
  | some .clA => 1
  | some .clB => 2
  | some .mp => 3

/-- The master a code names; none for 0 and for every code past 3. -/
def masterOfCode (v : Nat) : Option Master :=
  match v with
  | 1 => some .clA
  | 2 => some .clB
  | 3 => some .mp
  | _ => none

def CallClass.code : CallClass → Nat
  | .emergency => 1
  | .service => 2
  | .test => 3
  | .callout => 4

def Identity.code : Identity → Nat
  | .verified => 1
  | .mismatch => 2
  | .unchecked => 3

def Severity.code : Severity → Nat
  | .info => 1
  | .warning => 2
  | .major => 3
  | .critical => 4

def conditionCode : Option Severity → Nat
  | none => 0
  | some x => x.code

def Reason.code : Reason → Nat
  | .noSuchCall => 1
  | .wrongState => 2
  | .alreadyAnswered => 3
  | .notPermitted => 4
  | .noSlot => 5
  | .channelBusy => 6
  | .postBusy => 7
  | .noPost => 8
  | .protectedItem => 9
  | .badValue => 10
  | .busy => 11
  | .timeout => 12
  | .linkDown => 13
  | .notReady => 14

def DeviceState.code : DeviceState → Nat
  | .starting => 1
  | .loading => 2
  | .running => 3

def Source.code : Source → Nat
  | .none => 0
  | .defaults => 1
  | .corrupt => 2
  | .stored => 3
  | .storedWithRepairs => 4

def Topology.code : Topology → Nat
  | .down => 0
  | .single => 1
  | .split => 2
  | .rejoining => 3

def Tone.code : Tone → Nat
  | .registered => 1
  | .noService => 2
  | .hold => 3
  | .cleared => 4

def chainCode : Chain → Nat
  | .fwd => 1
  | .ret => 2

/-- One byte from a number. -/
def byte (v : Nat) : Byte := BitVec.ofNat 8 v

/-- Marks as the bits of one byte, bit 0 first. -/
def bitsByte (bits : List Bool) : Byte :=
  byte (bits.foldr (fun b acc => (if b then 1 else 0) + 2 * acc) 0)

/-! ### Entry block and snapshot -/

/-- An optional number: present 0 or 1, then the number in k bytes, 0 when absent. -/
def optBytes (k : Nat) (v : Option Nat) : List Byte :=
  match v with
  | none => byte 0 :: toBytes k 0
  | some x => byte 1 :: toBytes k x

/-- The entry block, 32 bytes. -/
def entryBlock : Option LocationRecord → List Byte
  | none => List.replicate 32 0
  | some x =>
    byte 1 :: (textBytes 6 x.route ++ [byte x.carriageway] ++ toBytes 4 x.chainage ++ textBytes 8 x.label ++
      toBytes 2 x.cable ++ optBytes 2 x.ret ++ optBytes 4 (x.serial.map (·.toNat)))

/-- The optional number in a field of a present byte and k bytes; none when the present byte is neither 0
nor 1. With present byte 0 the other bytes are not looked at: DESIGN CHOICE, log entry 40. -/
def optOf (k : Nat) (field : List Byte) : Option (Option Nat) :=
  match (byteAt field 0).toNat with
  | 0 => some none
  | 1 => some (some (numAt 1 k field))
  | _ => none

/-- The entry an entry block holds; none when the block has no form of the chapter or a field is
invalid (R52). Form 0 has every other byte 0: DESIGN CHOICE for a stored block, log entry 46. -/
def entryOf (block : List Byte) : Option (Option LocationRecord) :=
  match (byteAt block 0).toNat with
  | 0 => if block.all (· == 0) then some none else none
  | 1 =>
    match textOf 6 (slice 1 7 block), textOf 8 (slice 13 9 block), optOf 2 (slice 24 3 block),
        optOf 4 (slice 27 5 block) with
    | some route, some label, some ret, some serial =>
      let x : LocationRecord :=
        { route := route, carriageway := (byteAt block 8).toNat, chainage := numAt 9 4 block, label := label
          cable := numAt 22 2 block, ret := ret, serial := serial.map (BitVec.ofNat 32 ·) }
      if validText 1 6 x.route && (x.carriageway == 1 || x.carriageway == 2) && x.chainage ≤ 999999 &&
          validText 1 8 x.label then some (some x) else none
    | _, _, _, _ => none
  | _ => none

/-- A location snapshot, 34 bytes. -/
def snapshotBytes (x : Snapshot) : List Byte :=
  toBytes 2 x.version ++ entryBlock x.record

/-! ### Link messages (R209) -/

def OutMsg.kindCode : OutMsg → Nat
  | .done .. => 64
  | .accepted _ => 65
  | .refused .. => 66
  | .callOffer _ => 80
  | .callWithdrawn .. => 81
  | .callUpdate _ => 82
  | .callEnded .. => 83
  | .completion .. => 84
  | .alertReport _ => 85
  | .status _ => 96

/-- The tag of a message: a response's and a COMPLETION's own, 0 of every other (R182). -/
def OutMsg.tag : OutMsg → Byte
  | .done t _ | .accepted t | .refused t _ _ | .completion t _ => t
  | _ => 0

/-- Kind 0 is fill and is never a message (R209). -/
def isFill (kind : Byte) : Bool := kind == 0

/-! ### Link frames (R208) -/

/-- Does a link frame pass its check: 128 bytes, layout 1, check good (R208)? -/
def framePasses (f : List Byte) : Bool :=
  f.length == 128 && byteAt f 0 == 1 && passesCheck f

/-- What one byte of the message stream does to the assembly (R183, R208): `skip` is set once the rest of
the section is discarded or fill. -/
structure Assembling where
  assembly : List Byte
  skip : Bool
  bad : Nat
  out : List Message
deriving DecidableEq, Repr

/-- A message assembled whole, from its bytes (R182). -/
def messageOf (bs : List Byte) : Message :=
  { kind := byteAt bs 0, tag := byteAt bs 1, body := bs.drop 4 }

/-- One byte of a section into the assembly (R183, R208). -/
def feedByte (a : Assembling) (b : Byte) : Assembling :=
  if a.skip then a
  else if a.assembly == [] && isFill b then { a with skip := true }
  else
    let bs := a.assembly ++ [b]
    let len := numAt 2 2 bs
    if bs.length == 4 && (len < 4 || 240 < len) then { a with assembly := [], skip := true, bad := a.bad + 1 }
    else if 4 ≤ bs.length && bs.length == len then
      { a with assembly := [], out := a.out ++ [messageOf bs] }
    else { a with assembly := bs }

/-- The message section of a taken frame into the assembly: it goes on with a message in assembly, and
starts at the header's offset otherwise; an offset from 60 to 254 is an unframable header (R183, R208), which discards
a message in assembly too: DESIGN CHOICE, log entry 47. With a message in assembly the lengths of the messages govern,
whatever offset of 0 to 59 or 255 the header names: DESIGN CHOICE, log entry 62. -/
def takeSection (assembly : List Byte) (frame : List Byte) : Assembling :=
  let offset := (byteAt frame 1).toNat
  let section_ := slice 66 60 frame
  if 60 ≤ offset && offset ≤ 254 then { assembly := [], skip := true, bad := 1, out := [] }
  else if assembly == [] then
    if offset == 255 then { assembly := [], skip := true, bad := 0, out := [] }
    else (section_.drop offset).foldl feedByte { assembly := [], skip := false, bad := 0, out := [] }
  else section_.foldl feedByte { assembly := assembly, skip := false, bad := 0, out := [] }

/-! ### MP messages (R184, R208) -/

/-- What one UART character does to MP's assembly: whole messages in `out`, discarded ones in `bad`. -/
structure MpAssembling where
  assembly : Option (List Byte)
  bad : Nat
  out : List Message
deriving DecidableEq, Repr

/-- The start mark of an MP message (R208). -/
def startMark : Byte := 165

/-- One UART character into MP's assembly (R184). A kind of 0 after the start mark begins no message (R209); that the
LIF then waits for the next start mark, nothing counted, is a DESIGN CHOICE, log entry 16. -/
def feedChar (a : MpAssembling) (c : UartChar) : MpAssembling :=
  match a.assembly, c with
  | none, some b => if b == startMark then { a with assembly := some [] } else a
  | none, none => a
  | some _, none => { a with assembly := none, bad := a.bad + 1 }
  | some old, some b =>
    let bs := old ++ [b]
    let len := numAt 2 2 bs
    if old == [] && isFill b then { a with assembly := none }
    else if bs.length == 4 && (len < 4 || 240 < len) then { a with assembly := none, bad := a.bad + 1 }
    else if 4 ≤ bs.length && bs.length == len + 2 then
      if passesCheck bs then { a with assembly := none, out := a.out ++ [messageOf (bs.take len)] }
      else { a with assembly := none, bad := a.bad + 1 }
    else { a with assembly := some bs }

/-! ### Superframes (R210) -/

/-- A control message in 16 bytes: kind, position, parameters, check (R210). -/
def controlBytes (kind pos : Nat) (params : List Byte) : List Byte :=
  withCheck ([byte kind, byte pos] ++ params ++ List.replicate (12 - params.length) 0)

/-- The control message a line end sends (R30, R210). -/
def Sent.bytes : Sent → List Byte
  | .idle => controlBytes 1 0 []
  | .discovery p => controlBytes 2 p []
  | .ls .discover p => controlBytes 2 p []
  | .ls .claim p => controlBytes 3 p []
  | .ls .probe p => controlBytes 4 p []
  | .quarantineProbe p => controlBytes 4 p []
  | .signalling p (.connect slot) => controlBytes 5 p [byte slot]
  | .signalling p .disconnect => controlBytes 6 p []
  | .signalling p .ring => controlBytes 7 p []
  | .signalling p .stopRing => controlBytes 8 p []
  | .signalling p (.tone t) => controlBytes 9 p [byte t.code]
  | .access _ p item none _ => controlBytes 10 p [byte item]
  | .access _ p item (some v) _ => controlBytes 11 p (byte item :: toBytes 2 v)
  | .sense p sensor => controlBytes 12 p [byte sensor]
  | .line p => controlBytes 13 p []

/-- The position a control message targets; 0 for broadcast. -/
def Sent.target : Sent → Nat
  | .idle => 0
  | .discovery p | .ls _ p | .quarantineProbe p | .signalling p _ | .access _ p _ _ _ | .sense p _ | .line p => p

/-- A post's responses (R210). -/
inductive Resp where
  | ident (serial : Serial) (kind : Byte)
  | claimed (serial : Serial) (kind : Byte)
  | heldElsewhere
  | present
  | unassigned
  | ack
  | pending
  | value (index v : Nat)
  | lineValues (volt cur : Nat)
deriving DecidableEq, Repr

/-- The response a response part holds, with the position it names: none when it is all 0, fails its
check or has no known code (R210, R211). -/
def respOf (part : List Byte) : Option (Nat × Resp) :=
  if part.all (· == 0) || !passesCheck part then none
  else
    let p := (byteAt part 1).toNat
    let serial : Serial := BitVec.ofNat 32 (numAt 2 4 part)
    match (byteAt part 0).toNat with
    | 1 => some (p, .ident serial (byteAt part 6))
    | 2 => some (p, .claimed serial (byteAt part 6))
    | 3 => some (p, .heldElsewhere)
    | 4 => some (p, .present)
    | 5 => some (p, .unassigned)
    | 6 => some (p, .ack)
    | 7 => some (p, .pending)
    | 8 => some (p, .value (byteAt part 2).toNat (numAt 3 2 part))
    | 9 => some (p, .lineValues (numAt 2 2 part) (numAt 4 2 part))
    | _ => none

/-- The 16 bytes of a response (R210). -/
def Resp.bytes (p : Nat) : Resp → List Byte
  | .ident serial kind => controlBytes 1 p (toBytes 4 serial.toNat ++ [kind])
  | .claimed serial kind => controlBytes 2 p (toBytes 4 serial.toNat ++ [kind])
  | .heldElsewhere => controlBytes 3 p []
  | .present => controlBytes 4 p []
  | .unassigned => controlBytes 5 p []
  | .ack => controlBytes 6 p []
  | .pending => controlBytes 7 p []
  | .value index v => controlBytes 8 p (byte index :: toBytes 2 v)
  | .lineValues volt cur => controlBytes 9 p (toBytes 2 volt ++ toBytes 2 cur)

/-- Is a response an expected answer to a control message (R30, R139)? A VALUE names the item or sensor
asked for. -/
def Sent.expects (m : Sent) (r : Resp) : Bool :=
  match m, r with
  | .discovery _, .ident .. | .discovery _, .heldElsewhere => true
  | .ls .discover _, .ident .. | .ls .discover _, .heldElsewhere => true
  | .ls .claim _, .claimed .. => true
  | .ls .probe _, .present | .ls .probe _, .unassigned | .ls .probe _, .heldElsewhere => true
  | .quarantineProbe _, .present => true
  | .signalling .., .ack => true
  | .access _ _ item none _, .value i _ => i == item
  | .access _ _ _ none _, .pending => true
  | .access _ _ _ (some _) _, .ack => true
  | .access _ _ _ (some _) _, .pending => true
  | .sense _ sensor, .value i _ => i == sensor
  | .line _, .lineValues .. => true
  | _, _ => false

/-- The clean response to a control message in an upstream superframe, none when the attempt failed
(R32, R211). -/
def cleanResp (m : Sent) (part : List Byte) : Option Resp :=
  match respOf part with
  | some (p, r) => if p == m.target && m.expects r then some r else none
  | none => none

def Request.ofBits (v : Nat) : Request :=
  match v with
  | 1 => .emergency
  | 2 => .service
  | 3 => .test
  | _ => .idle

def Request.code : Request → Nat
  | .idle => 0
  | .emergency => 1
  | .service => 2
  | .test => 3

/-- The fields of a status word's first byte (R210). -/
def wordOf (b : Byte) : StatusWord :=
  { hookOff := b.getLsbD 6
    request := Request.ofBits ((b.toNat / 16) % 4)
    ringing := b.getLsbD 3
    dir := if b.getLsbD 2 then .ret else .fwd
    seq := b.setWidth 2 }

/-- A status word's three bytes (R210). -/
def StatusWord.bytes (w : StatusWord) : List Byte :=
  withCheck [byte (128 + (if w.hookOff then 64 else 0) + 16 * w.request.code + (if w.ringing then 8 else 0) +
    (if w.dir == .ret then 4 else 0) + w.seq.toNat)]

/-- The classes of a status position (R4). -/
inductive WordClass where
  | absent
  | corrupt
  | misdirected
  | stale
  | valid (w : StatusWord)
deriving DecidableEq, Repr

/-- The class of a served position's three bytes at line end d (R4, R211). -/
def classify (d : Chain) (x : Post) (bs : List Byte) : WordClass :=
  if bs.all (· == 0) then .absent
  else if !(passesCheck bs && (byteAt bs 0).getLsbD 7) then .corrupt
  else
    let w := wordOf (byteAt bs 0)
    if w.dir != d then .misdirected
    else if !x.firstNext && x.lastWord.any (·.seq == w.seq) then .stale
    else .valid w

/-- The three bytes of position p in an upstream superframe (R210). -/
def wordBytes (p : Nat) (frame : List Byte) : List Byte := slice (2 + 3 * (p - 1)) 3 frame

/-- The response part of an upstream superframe (R210). -/
def respPart (frame : List Byte) : List Byte := slice 50 16 frame

/-- The upstream voice of a superframe: silence when its voice check fails (R210, R211). -/
def upVoiceOf (frame : List Byte) : List Byte :=
  if frame.length == 116 && passesCheck (frame.drop 66) then slice 66 48 frame
  else List.replicate 48 silenceCode

/-- A downstream superframe, 68 bytes (R210). -/
def downBytes (d : Chain) (m : Sent) (voice : List Byte) : List Byte :=
  withCheck ([byte 90, byte (chainCode d)] ++ m.bytes ++ voice)

/-- Does a superframe received at the return port pass as a forward downstream superframe (R12, R212)? -/
def forwardPasses (f : List Byte) : Bool :=
  f.length == 68 && byteAt f 0 == 90 && byteAt f 1 == 1 && passesCheck f

end Sys2Proof.Machine
end

