-- ==== Sys2Proof/Machine/Image.lean ====
section
/-! DEFINITION. Settings, poll entries and the stored image as bytes, the load outcome and the repairs
(chapter Configuration Store and Start-up; chapter Formats and Signals, Stored image). -/

namespace Sys2Proof.Machine

/-! ### Settings (R202, R203, R209) -/

/-- The setting a number 1 to 18 names (R209). -/
def SettingName.ofNumber (v : Nat) : Option SettingName :=
  [SettingName.lineMode, .expectedPosts, .loopResistance, .highEnter, .highLeave, .lowEnter, .lowLeave,
    .leakageThreshold, .keepAlive, .escalationTime, .calloutLimit, .holdReminder, .startMode, .measureInterval,
    .pairedSampling, .offerFilter, .eventMask, .siteName][v - 1]?.filter fun _ => 1 ≤ v

/-- Is the setting held once for each master (R202)? -/
def SettingName.perMaster : SettingName → Bool
  | .keepAlive | .offerFilter | .eventMask => true
  | _ => false

/-- The bytes a setting's value takes in the settings block. -/
def SettingName.size : SettingName → Nat
  | .lineMode | .expectedPosts | .startMode | .pairedSampling => 1
  | .offerFilter => 3
  | .siteName => 13
  | _ => 2

/-- The clamping of a numeric setting to its range; the escalation time keeps 0 (R202). -/
def SettingName.clampTo : SettingName → Nat → Nat
  | .expectedPosts, v => clamp 0 16 v
  | .loopResistance, v => clamp 100 2000 v
  | .highEnter, v => clamp 101 400 v
  | .highLeave, v => clamp 100 399 v
  | .lowEnter, v => clamp 10 99 v
  | .lowLeave, v => clamp 11 100 v
  | .leakageThreshold, v => clamp 1000 50000 v
  | .keepAlive, v => clamp 100 10000 v
  | .escalationTime, v => if v = 0 then 0 else clamp 5 300 v
  | .calloutLimit, v => clamp 10 180 v
  | .holdReminder, v => clamp 30 600 v
  | .measureInterval, v => clamp 1 600 v
  | _, v => v

def lineModeOf : Nat → Option LineMode
  | 0 => some .openLine
  | 1 => some .loop
  | _ => none

def LineMode.code : LineMode → Nat
  | .openLine => 0
  | .loop => 1

def measureModeOf : Nat → Option MeasureMode
  | 0 => some .off
  | 1 => some .single
  | 2 => some .cyclic
  | 3 => some .focused
  | _ => none

def MeasureMode.code : MeasureMode → Nat
  | .off => 0
  | .single => 1
  | .cyclic => 2
  | .focused => 3

/-- The value that the bytes of a WRITE_SETTING give, clamped where numeric; none when a name, set or text
is not one of its allowed forms (R202, R203). -/
def SettingName.read (n : SettingName) (bs : List Byte) : Option SettingValue :=
  match n with
  | .lineMode => (lineModeOf (fromBytes bs)).map .lineMode
  | .startMode => (measureModeOf (fromBytes bs)).map .mode
  | .pairedSampling =>
    match fromBytes bs with
    | 0 => some (.onOff false)
    | 1 => some (.onOff true)
    | _ => none
  | .offerFilter =>
    if numAt 2 1 bs < 16 then some (.filter { positions := BitVec.ofNat 16 (numAt 0 2 bs), classes := BitVec.ofNat 4 (numAt 2 1 bs) })
    else none
  | .eventMask => if fromBytes bs < 512 then some (.mask (BitVec.ofNat 9 (fromBytes bs))) else none
  | .siteName => (textOf 12 bs).bind fun t => if validText 1 12 t then some (.text t) else none
  | n => some (.number (n.clampTo (fromBytes bs)))

/-- The settings with one setting's value replaced; for a per-master setting, that of master `m`. -/
def Settings.put (x : Settings) (n : SettingName) (m : Master) (v : SettingValue) : Settings :=
  match n, v with
  | .lineMode, .lineMode a => { x with lineMode := a }
  | .expectedPosts, .number a => { x with expectedPosts := a }
  | .loopResistance, .number a => { x with loopResistance := a }
  | .highEnter, .number a => { x with highEnter := a }
  | .highLeave, .number a => { x with highLeave := a }
  | .lowEnter, .number a => { x with lowEnter := a }
  | .lowLeave, .number a => { x with lowLeave := a }
  | .leakageThreshold, .number a => { x with leakageThreshold := a }
  | .keepAlive, .number a => { x with keepAlive := x.keepAlive.set m a }
  | .escalationTime, .number a => { x with escalationTime := a }
  | .calloutLimit, .number a => { x with calloutLimit := a }
  | .holdReminder, .number a => { x with holdReminder := a }
  | .startMode, .mode a => { x with startMode := a }
  | .measureInterval, .number a => { x with measureInterval := a }
  | .pairedSampling, .onOff a => { x with pairedSampling := a }
  | .offerFilter, .filter a => { x with offerFilter := x.offerFilter.set m a }
  | .eventMask, .mask a => { x with eventMask := x.eventMask.set m a }
  | .siteName, .text a => { x with siteName := a }
  | _, _ => x

def filterBytes (f : OfferFilter) : List Byte := toBytes 2 f.positions.toNat ++ [byte f.classes.toNat]

/-- The settings block, 58 bytes. -/
def settingsBlock (x : Settings) : List Byte :=
  [byte x.lineMode.code, byte x.expectedPosts] ++
    [x.loopResistance, x.highEnter, x.highLeave, x.lowEnter, x.lowLeave, x.leakageThreshold, x.keepAlive.clA,
      x.keepAlive.clB, x.keepAlive.mp, x.escalationTime, x.calloutLimit, x.holdReminder].flatMap (toBytes 2) ++
    [byte x.startMode.code] ++ toBytes 2 x.measureInterval ++ [byte (if x.pairedSampling then 1 else 0)] ++
    filterBytes x.offerFilter.clA ++ filterBytes x.offerFilter.clB ++ filterBytes x.offerFilter.mp ++
    [x.eventMask.clA, x.eventMask.clB, x.eventMask.mp].flatMap (fun m => toBytes 2 m.toNat) ++
    textBytes 12 x.siteName

/-- Where each setting stands in the settings block: name, master, first byte. -/
def settingsLayout : List (SettingName × Master × Nat) :=
  [(.lineMode, .clA, 0), (.expectedPosts, .clA, 1), (.loopResistance, .clA, 2), (.highEnter, .clA, 4),
    (.highLeave, .clA, 6), (.lowEnter, .clA, 8), (.lowLeave, .clA, 10), (.leakageThreshold, .clA, 12),
    (.keepAlive, .clA, 14), (.keepAlive, .clB, 16), (.keepAlive, .mp, 18), (.escalationTime, .clA, 20),
    (.calloutLimit, .clA, 22), (.holdReminder, .clA, 24), (.startMode, .clA, 26), (.measureInterval, .clA, 27),
    (.pairedSampling, .clA, 29), (.offerFilter, .clA, 30), (.offerFilter, .clB, 33), (.offerFilter, .mp, 36),
    (.eventMask, .clA, 39), (.eventMask, .clB, 41), (.eventMask, .mp, 43), (.siteName, .clA, 45)]

/-- Does a stored numeric value lie outside its range (R200)? -/
def SettingName.outOfRange (n : SettingName) (bs : List Byte) : Bool :=
  match n with
  | .lineMode | .startMode | .pairedSampling | .offerFilter | .eventMask | .siteName => false
  | n => n.clampTo (fromBytes bs) != fromBytes bs

/-- The bytes of a stored filter or mask without the bits that stand for nothing (log entry 20). -/
def SettingName.definedBits (n : SettingName) (bs : List Byte) : List Byte :=
  match n with
  | .offerFilter => slice 0 2 bs ++ [byte (numAt 2 1 bs % 16)]
  | .eventMask => toBytes 2 (fromBytes bs % 512)
  | _ => bs

/-- One setting of a stored block into the settings, with its repair if one was made (R200). A site name padded with
other bytes than 0 is repaired: DESIGN CHOICE, log entry 45. -/
def loadSetting (block : List Byte) (acc : Settings × List Repair) (at_ : SettingName × Master × Nat) :
    Settings × List Repair :=
  let n := at_.1
  let m := at_.2.1
  let bs := n.definedBits (slice at_.2.2 n.size block)
  let named : Option Master := if n.perMaster then some m else none
  match n.read bs with
  | some v => (acc.1.put n m v, if n.outOfRange bs then acc.2 ++ [.setting n named] else acc.2)
  | none => (acc.1, acc.2 ++ [.setting n named])

/-- The settings of a stored block, and the repairs made (R200). -/
def loadSettings (block : List Byte) : Settings × List Repair :=
  settingsLayout.foldl (loadSetting block) ({}, [])

/-! ### Poll entries (R140, R141) -/

def PollMode.code : PollMode → Nat
  | .matching => 1
  | .above => 2
  | .below => 3

def pollModeOf : Nat → Option PollMode
  | 1 => some .matching
  | 2 => some .above
  | 3 => some .below
  | _ => none

def severityOf : Nat → Option Severity
  | 1 => some .info
  | 2 => some .warning
  | 3 => some .major
  | 4 => some .critical
  | _ => none

/-- A poll entry in 14 bytes. -/
def pollBytes (e : PollEntry) : List Byte :=
  [byte (if e.enabled then 1 else 0), byte (e.target.getD 0), byte e.sensor, byte e.mode.code] ++
    toBytes 2 e.mask ++ toBytes 2 e.compare ++ toBytes 2 e.hysteresis ++ [byte e.severity.code, byte e.code] ++
    toBytes 2 e.interval

/-- The poll entry in 14 bytes, its interval clamped; none when another field is out of its range or not
one of its names (R141, R200). The enabled byte is 0 or 1: DESIGN CHOICE, log entry 43. -/
def pollOf (bs : List Byte) : Option PollEntry :=
  match pollModeOf (numAt 3 1 bs), severityOf (numAt 10 1 bs) with
  | some mode, some severity =>
    if numAt 0 1 bs ≤ 1 && numAt 1 1 bs ≤ 16 && numAt 2 1 bs ≤ 15 then
      some
        { enabled := numAt 0 1 bs == 1
          target := if numAt 1 1 bs = 0 then none else some (numAt 1 1 bs)
          sensor := numAt 2 1 bs
          mode := mode
          mask := numAt 4 2 bs
          compare := numAt 6 2 bs
          hysteresis := numAt 8 2 bs
          severity := severity
          code := numAt 11 1 bs
          interval := clamp 1 3600 (numAt 12 2 bs) }
    else none
  | _, _ => none

/-! ### The stored image -/

def identityWord : Nat := 21318
def layoutVersion : Nat := 1
/-- The bytes of the image with its check. -/
def imageSize : Nat := 1026

/-- The stored image of a working copy (R198, R205). -/
def imageOf (settings : Settings) (version : Nat) (directory : Vector (Option LocationRecord) 16)
    (polls : Vector PollEntry 32) : List Byte :=
  withCheck (toBytes 2 identityWord ++ toBytes 2 layoutVersion ++ settingsBlock settings ++ toBytes 2 version ++
    directory.toList.flatMap entryBlock ++ polls.toList.flatMap pollBytes)

/-- A working copy as installed at the end of LOADING (R199 to R201). -/
structure Loaded where
  settings : Settings := {}
  directory : Vector (Option LocationRecord) 16 := Vector.replicate 16 none
  version : Nat := 0
  polls : Vector PollEntry 32 := Vector.replicate 32 {}
  source : Source
  repairs : List Repair := []

/-- The directory being loaded: the entries kept, and the distances the next must keep to (R200). -/
structure LoadingDirectory where
  entries : Vector (Option LocationRecord) 16 := Vector.replicate 16 none
  cable : Option Nat := none
  ret : Option Nat := none
  repairs : List Repair := []

/-- One entry block of an image into the directory (R200). A block of another form, of form 0 with other bytes than
0, or with a text padded otherwise is a repair: DESIGN CHOICE, log entries 45, 46. -/
def loadEntry (image : List Byte) (acc : LoadingDirectory) (p : Nat) : LoadingDirectory :=
  let bad := { acc with repairs := acc.repairs ++ [.entryUnused p] }
  match entryOf (slice (64 + 32 * (p - 1)) 32 image) with
  | none => bad
  | some none => acc
  | some (some x) =>
    let cableOk := acc.cable.all (· < x.cable)
    let retOk := match x.ret, acc.ret with
      | some a, some b => a < b
      | _, _ => true
    if cableOk && retOk then
      { acc with entries := put1 acc.entries p (some x)
                 cable := some x.cable
                 ret := if x.ret.isSome then x.ret else acc.ret }
    else bad

/-- Poll entries 0 to 31. -/
def entryNumbers : List Nat := List.range 32

/-- One poll entry of an image into the poll table (R200). -/
def loadPoll (image : List Byte) (acc : Vector PollEntry 32 × List Repair) (e : Nat) :
    Vector PollEntry 32 × List Repair :=
  match pollOf (slice (576 + 14 * e) 14 image) with
  | some x => (put1 acc.1 (e + 1) x, acc.2)
  | none => (acc.1, acc.2 ++ [.pollReplaced e])

/-- The working copy of an image whose check is good, with its repairs (R200). -/
def repairedImage (image : List Byte) : Loaded :=
  let st := loadSettings (slice 4 58 image)
  let polls := entryNumbers.foldl (loadPoll image) (Vector.replicate 32 {}, [])
  let dir := positions.foldl (loadEntry image) {}
  let stored := numAt 62 2 image
  let raised := stored == 0 && positions.any fun p => (at1 dir.entries p none).isSome
  let repairs := st.2 ++ polls.2 ++ dir.repairs ++ (if raised then [.versionRaised] else [])
  { settings := st.1
    directory := dir.entries
    version := if raised then 1 else stored
    polls := polls.1
    source := if repairs.isEmpty then .stored else .storedWithRepairs
    repairs := repairs }

/-- The outcome of the reading of the image; none is a memory that does not answer (R199). -/
def loadOutcome (read : Option (List Byte)) : Loaded :=
  match read with
  | none => { source := .defaults }
  | some image =>
    if numAt 0 2 image != identityWord || numAt 2 2 image != layoutVersion then { source := .defaults }
    else if !passesCheck (image.take imageSize) then { source := .corrupt }
    else repairedImage image

end Sys2Proof.Machine
end

