-- ==== Sys2Proof/Machine/Operands.lean ====
section
/-! DEFINITION. The operand forms of request bodies (R209): a body of another length, or with a value that is
no form of its request, reads as none. -/

namespace Sys2Proof.Machine

/-- A body of one byte. -/
def oneOperand : List Byte → Option Nat
  | [a] => some a.toNat
  | _ => none

/-- A body of two bytes. -/
def twoOperands : List Byte → Option (Nat × Nat)
  | [a, b] => some (a.toNat, b.toNat)
  | _ => none

/-- A body of one byte within a range. -/
def oneWithin (lo hi : Nat) (body : List Byte) : Option Nat :=
  (oneOperand body).filter fun v => lo ≤ v && v ≤ hi

/-- TRANSFER: call number and target, coded as a master (R107). -/
def transferOperands (body : List Byte) : Option (Nat × Master) :=
  (twoOperands body).bind fun x => (masterOfCode x.2).map fun m => (x.1, m)

/-- WRITE_ENTRY: position and an entry block of form 1 with valid fields (R52, R54). -/
def entryOperands (body : List Byte) : Option (Nat × LocationRecord) :=
  if body.length == 33 then
    match entryOf (body.drop 1) with
    | some (some x) => if validPos (numAt 0 1 body) then some (numAt 0 1 body, x) else none
    | _ => none
  else none

/-- WRITE_SETTING: the setting, its master when it is held once for each, and the value (R203). -/
def settingOperands (body : List Byte) : Option (SettingName × Option Master × SettingValue) :=
  match SettingName.ofNumber (numAt 0 1 body) with
  | none => none
  | some n =>
    let code := numAt 1 1 body
    let m := masterOfCode code
    if body.length != 2 + n.size || (if n.perMaster then m.isNone else code != 0) then none
    else (n.read (body.drop 2)).map fun v => (n, m, v)

/-- WRITE_POLL: the entry number and its ten fields, the interval clamped (R141). -/
def pollOperands (body : List Byte) : Option (Nat × PollEntry) :=
  if body.length == 15 && numAt 0 1 body ≤ 31 then (pollOf (body.drop 1)).map fun x => (numAt 0 1 body, x)
  else none

/-- The sections of READ_LINE (R180). -/
inductive SectionName where
  | summary
  | spans
  | alerts
  | values
deriving DecidableEq, Repr

def sectionOf : Nat → Option SectionName
  | 1 => some .summary
  | 2 => some .spans
  | 3 => some .alerts
  | 4 => some .values
  | _ => none

/-- Does a first place lie within the range of its section (R180)? -/
def SectionName.holds : SectionName → Nat → Bool
  | .summary, v => v == 0
  | .spans, v => 1 ≤ v && v ≤ 17
  | .alerts, v => 1 ≤ v && v ≤ 40
  | .values, v => 1 ≤ v && v ≤ 16

/-- READ_LINE: section and first place (R180). -/
def lineOperands (body : List Byte) : Option (SectionName × Nat) :=
  (twoOperands body).bind fun x =>
    match sectionOf x.1 with
    | some k => if k.holds x.2 then some (k, x.2) else none
    | none => none

/-- POST_READ: position and item (R46). -/
def itemOperands (body : List Byte) : Option (Nat × Nat) :=
  (twoOperands body).filter fun x => validPos x.1 && x.2 ≤ 31

/-- POST_WRITE: position, item and value (R46). -/
def itemWriteOperands (body : List Byte) : Option (Nat × Nat × Nat) :=
  if body.length == 4 then (itemOperands (body.take 2)).map fun x => (x.1, x.2, numAt 2 2 body) else none

/-- A page of four from a place numbered from 1 (R77, R97, R155, R181). -/
def page {α : Type} (first : Nat) (xs : List α) : List α := (xs.drop (first - 1)).take 4

end Sys2Proof.Machine
end

