-- ==== Sys2Proof/Config.lean ====
section
/-! DEFINITION. What the spec leaves open: constants without a body, so that no proof can rest on their
values. Log entries 3 and 8. -/

namespace Sys2Proof

/-- The code that the sample number `k` after the present one reads: the converter's inputs are the
outside's (R158). A free value; log entry 3. -/
opaque Config.converterCode (k : Nat) : Code

/-- The byte that stands for a name in a field of a response or notice, where the chapter Formats and Signals codes
neither the field nor the name (R182): `field` says which field, `name` is the spec's name. A free value; log entry
8. -/
opaque Config.nameCode (field name : String) : Byte

end Sys2Proof
end

