-- ==== Sys2Proof/Machine/Bodies.lean ====
section
/-! DEFINITION. The bodies of the messages to the masters: the fields that the rule owning each lists, in the order
listed, each coded as the chapter Formats and Signals codes it (R182, R209). A name to which that chapter gives no code
is a free byte; how optional fields, marks and unnumbered sizes are written is log entry 8. -/

namespace Sys2Proof.Machine

/-! ### Names without a code -/

def CallState.code : CallState → Byte
  | .waiting => Config.nameCode "call state" "WAITING"
  | .connected => Config.nameCode "call state" "CONNECTED"
  | .held => Config.nameCode "call state" "HELD"
  | .alerting => Config.nameCode "call state" "ALERTING"
  | .clearing => Config.nameCode "call state" "CLEARING"
  | .severed => Config.nameCode "call state" "SEVERED"

def EndReason.code : EndReason → Byte
  | .callerCleared => Config.nameCode "reason of an ending" "CALLER_CLEARED"
  | .callerGone => Config.nameCode "reason of an ending" "CALLER_GONE"
  | .clearedByControl => Config.nameCode "reason of an ending" "CLEARED_BY_CONTROL"
  | .closed => Config.nameCode "reason of an ending" "CLOSED"
  | .noAnswer => Config.nameCode "reason of an ending" "NO_ANSWER"
  | .calloutAbandoned => Config.nameCode "reason of an ending" "CALLOUT_ABANDONED"
  | .testExpired => Config.nameCode "reason of an ending" "TEST_EXPIRED"

def PostState.code : PostState → Byte
  | .vacant => Config.nameCode "post state" "VACANT"
  | .active => Config.nameCode "post state" "ACTIVE"
  | .quarantined => Config.nameCode "post state" "QUARANTINED"
  | .lost => Config.nameCode "post state" "LOST"

def LineState.code : LineState → Byte
  | .off => Config.nameCode "line-end state" "OFF"
  | .feeding => Config.nameCode "line-end state" "FEEDING"
  | .discovering => Config.nameCode "line-end state" "DISCOVERING"
  | .running => Config.nameCode "line-end state" "RUNNING"
  | .watching => Config.nameCode "line-end state" "WATCHING"
  | .failed => Config.nameCode "line-end state" "FAILED"

def SpanClass.code : SpanClass → Byte
  | .unmeasured => Config.nameCode "span class" "UNMEASURED"
  | .normal => Config.nameCode "span class" "NORMAL"
  | .high => Config.nameCode "span class" "HIGH"
  | .low => Config.nameCode "span class" "LOW"
  | .unrated => Config.nameCode "span class" "UNRATED"

/-- The INVALID mark: clear, or its reason (R170). -/
def invalidCode : Option InvalidReason → Byte
  | none => Config.nameCode "INVALID mark" "clear"
  | some .skipped => Config.nameCode "INVALID mark" "SKIPPED"
  | some .saturated => Config.nameCode "INVALID mark" "SATURATED"
  | some .noCurrent => Config.nameCode "INVALID mark" "NO_CURRENT"
  | some .negativeDrop => Config.nameCode "INVALID mark" "NEGATIVE_DROP"

def LineAlertKind.code : LineAlertKind → Byte
  | .breakAlert => Config.nameCode "line alert" "BREAK"
  | .postSilent => Config.nameCode "line alert" "POST_SILENT"
  | .tail => Config.nameCode "line alert" "TAIL"
  | .feedFault => Config.nameCode "line alert" "FEED_FAULT"
  | .length => Config.nameCode "line alert" "LENGTH"
  | .spanSuspect => Config.nameCode "line alert" "SPAN_SUSPECT"
  | .leakage => Config.nameCode "line alert" "LEAKAGE"

def RoundKind.code : RoundKind → Byte
  | .full => Config.nameCode "kind of round" "FULL"
  | .focused => Config.nameCode "kind of round" "FOCUSED"

def AssertionReport.code : AssertionReport → Byte
  | .clear => Config.nameCode "assertion state" "CLEAR"
  | .assertedListed => Config.nameCode "assertion state" "ASSERTED LISTED"
  | .assertedUnlisted => Config.nameCode "assertion state" "ASSERTED UNLISTED"

def ReportCause.code : ReportCause → Byte
  | .asserted => Config.nameCode "cause of an alert report" "ASSERTED"
  | .deasserted => Config.nameCode "cause of an alert report" "DEASSERTED"
  | .removed => Config.nameCode "cause of an alert report" "REMOVED"
  | .evicted => Config.nameCode "cause of an alert report" "EVICTED"
  | .dropped => Config.nameCode "cause of an alert report" "DROPPED"

def SaveStage.code : SaveStage → Byte
  | .idle => Config.nameCode "save stage" "IDLE"
  | .writing => Config.nameCode "save stage" "WRITING"
  | .verifying => Config.nameCode "save stage" "VERIFYING"

/-- The result of a SAVE, and with a failure its cause (R198, R206). -/
def SaveResult.bytes : SaveResult → List Byte
  | .none => [Config.nameCode "save result" "NONE"]
  | .done => [Config.nameCode "save result" "SAVE_DONE"]
  | .failedNoAnswer => [Config.nameCode "save result" "SAVE_FAILED", Config.nameCode "cause of a failed save" "NO_ANSWER"]
  | .failedMismatch => [Config.nameCode "save result" "SAVE_FAILED", Config.nameCode "cause of a failed save" "MISMATCH"]

/-- The result of an item access, and with VALUE the value (R48). -/
def AccessResult.bytes : AccessResult → List Byte
  | .value v => Config.nameCode "result of an access" "VALUE" :: toBytes 2 v
  | .done => [Config.nameCode "result of an access" "DONE"]
  | .timeout => [Config.nameCode "result of an access" "TIMEOUT"]
  | .noPost => [Config.nameCode "result of an access" "NO_POST"]

/-- The reason of CALL_WITHDRAWN, and the new owner named with ANSWERED (R83). -/
def WithdrawReason.bytes : WithdrawReason → List Byte
  | .answered owner => [Config.nameCode "reason of a withdrawal" "ANSWERED", byte (masterCode (some owner))]
  | .ended => [Config.nameCode "reason of a withdrawal" "ENDED", byte (masterCode none)]
  | .notOffered => [Config.nameCode "reason of a withdrawal" "NOT_OFFERED", byte (masterCode none)]

def UpdateCause.code : UpdateCause → Byte
  | .condition => Config.nameCode "cause of a call update" "CONDITION"
  | .degraded => Config.nameCode "cause of a call update" "DEGRADED"
  | .renamed => Config.nameCode "cause of a call update" "RENAMED"
  | .upgraded => Config.nameCode "cause of a call update" "UPGRADED"
  | .escalated => Config.nameCode "cause of a call update" "ESCALATED"
  | .severed => Config.nameCode "cause of a call update" "SEVERED"
  | .noSlot _ => Config.nameCode "cause of a call update" "NO_SLOT"
  | .reminder => Config.nameCode "cause of a call update" "REMINDER"

/-- The chain that NO_SLOT names (R102). -/
def UpdateCause.chain : UpdateCause → List Byte
  | .noSlot d => [byte (chainCode d)]
  | _ => []

/-! ### Fields -/

/-- An optional field of `k` bytes: present 0 or 1, then the bytes, 0 when absent. -/
def optField (k : Nat) (x : Option (List Byte)) : List Byte :=
  match x with
  | none => byte 0 :: List.replicate k 0
  | some bs => byte 1 :: bs

def markByte (v : Bool) : Byte := byte (if v then 1 else 0)

/-- An optional chain, 0 when absent. -/
def chainByte (d : Option Chain) : Byte := byte (match d with
  | none => 0
  | some d => chainCode d)

/-- A part time, modulo 2^32. -/
def timeBytes (t : Nat) : List Byte := toBytes 4 (t % 2 ^ 32)

/-- A voice slot with its chain; both 0 when absent. -/
def slotBytes : Option (Chain × Nat) → List Byte
  | none => [byte 0, byte 0]
  | some (d, k) => [byte (chainCode d), byte k]

/-- An offer set as bits (R209). -/
def offerByte (o : PerMaster Bool) : Byte := bitsByte [o.clA, o.clB, o.mp]

/-- The flags of a call as bits (R209). -/
def flagsByte (f : CallFlags) : Byte :=
  bitsByte [f.escalated, f.rescued, f.reconnected, f.overflow, f.transferred, f.renamed, f.degraded, f.everConnected]

/-- The name of a post (R61). -/
def PostName.bytes (x : PostName) : List Byte := byte x.pos :: (entryBlock x.record ++ [byte x.identity.code])

/-- A name in reduced form; a port end is its position alone (R180). -/
def ReducedName.bytes (x : ReducedName) : List Byte :=
  byte x.pos :: (match x.identity with
    | none => []
    | some v => byte v.code :: (optBytes 2 x.cable ++ optBytes 2 x.ret))

/-- The names of the two outer ends of a range of spans, if it is named (R62, R180). -/
def endsBytes : Option (ReducedName × ReducedName) → List Byte
  | none => []
  | some (near, far) => near.bytes ++ far.bytes

/-! ### Bodies of DONE, rule by rule -/

/-- A record as READ_QUEUE reports it (R77). An absent link channel is one byte 0: DESIGN CHOICE, log entry 57. -/
def CallReport.bytes (c : CallReport) : List Byte :=
  [byte c.number, byte c.cls.code, byte c.pos, c.state.code] ++ timeBytes c.arrival ++
    [byte (masterCode c.owner), byte (masterCode c.lastOwner), offerByte c.offer] ++ slotBytes c.slot ++
    [byte (c.channel.getD 0), flagsByte c.flags, byte (conditionCode c.condition)] ++ snapshotBytes c.snapshot ++
    [byte c.identity.code]

/-- An abandoned entry (R94, R97). -/
def Abandoned.bytes (x : Abandoned) : List Byte :=
  [byte x.number, byte x.pos] ++ snapshotBytes x.name ++ [byte x.cls.code] ++ timeBytes x.arrival ++
    timeBytes x.ended ++ [x.reason.code]

/-- The repairs: a position set, a set of poll entries and a set of settings as bits, and whether the version was
raised (R198, R200). -/
def repairBytes (xs : List Repair) : List Byte :=
  let bits := fun (k : Nat) (marks : List Bool) => (List.range k).map fun i => bitsByte ((marks.drop (8 * (k - 1 - i))).take 8)
  bits 2 (positions.map fun p => xs.contains (.entryUnused p)) ++
    bits 4 (entryNumbers.map fun e => xs.contains (.pollReplaced e)) ++
    bits 3 (settingsLayout.map fun y => xs.contains (.setting y.1 (if y.1.perMaster then some y.2.1 else none))) ++
    [markByte (xs.contains .versionRaised)]

/-- The store record with the version of the working copy (R198, R204). -/
def StoreReport.bytes (x : StoreReport) : List Byte :=
  [byte x.source.code] ++ repairBytes x.repairs ++ [x.stage.code] ++
    optField 3 (x.requester.map fun r => [byte (masterCode (some r.master)), r.tag, markByte r.orphaned]) ++
    x.lastResult.bytes ++ optField 6 (x.lastEnd.map fun e => timeBytes e.1 ++ toBytes 2 e.2) ++ toBytes 2 x.version

/-- A setting's value, as in the settings block (R203, R209). -/
def SettingValue.bytes (n : SettingName) : SettingValue → List Byte
  | .number v => toBytes n.size v
  | .lineMode v => [byte v.code]
  | .mode v => [byte v.code]
  | .onOff v => [markByte v]
  | .filter v => filterBytes v
  | .mask v => toBytes 2 v.toNat
  | .text v => textBytes 12 v

/-- The number of a setting (R209). -/
def SettingName.number (n : SettingName) : Nat :=
  ((List.range 19).find? fun v => SettingName.ofNumber v == some n).getD 0

def PairReport.bytes (x : PairReport) : List Byte := [byte x.pos, x.state.code] ++ timeBytes x.due

/-- An alert with its post's name (R150, R155). -/
def AlertEntry.bytes (x : AlertEntry) : List Byte :=
  [byte x.alert.entry, byte x.alert.pos, byte x.alert.severity.code, byte x.alert.code] ++ timeBytes x.alert.first ++
    toBytes 2 x.alert.last ++ [markByte x.alert.stale] ++ x.name.bytes

/-- A post table entry as READ_POSTS reports it (R195). The last status word is byte 0 of R211 without its check, and one
byte 0 when absent: DESIGN CHOICE, log entry 57. -/
def PostReport.bytes (x : PostReport) : List Byte :=
  [x.state.code, chainByte x.serving] ++ optBytes 4 (x.serial.map (·.toNat)) ++ optBytes 1 (x.kind.map (·.toNat)) ++
    [byte x.identity.code] ++ (match x.name with
      | none => []
      | some y => y.bytes) ++
    [byte x.score, byte x.cleanProbes, byte x.silence, markByte x.releaseMark] ++
    (match x.lastWord with
      | none => [byte 0]
      | some w => w.bytes.take 1) ++ [byte (conditionCode x.condition)]

/-- A span with its name and the thresholds used (R170, R181). The thresholds, which both rules list, are written once,
after the name: DESIGN CHOICE, log entry 60. -/
def SpanReport.bytes (x : SpanReport) : List Byte :=
  optBytes 2 x.entry.r ++ optBytes 2 x.entry.e ++ optBytes 2 x.entry.ratio ++
    [x.entry.cls.code, invalidCode x.entry.invalid, byte x.entry.abnormal, markByte x.entry.suspect,
      chainByte x.entry.chain] ++ optBytes 2 x.entry.round ++ endsBytes x.name ++
    optField 8 (x.entry.used.map fun t => [t.highEnter, t.highLeave, t.lowEnter, t.lowLeave].flatMap (toBytes 2))

def AlertPlace.bytes : AlertPlace → List Byte
  | .spans first last => [byte first, byte last]
  | .position p => [byte p]
  | .lineEnd d | .chain d => [byte (chainCode d)]
  | .forwardPort => [byte (chainCode .fwd)]

def PlaceName.bytes : PlaceName → List Byte
  | .post x | .port x => x.bytes
  | .span ends => endsBytes ends
  | .chain => []

/-- A line alert (R181). -/
def LineAlertReport.bytes (x : LineAlertReport) : List Byte :=
  x.kind.code :: (x.place.bytes ++ timeBytes x.time ++ x.name.bytes)

/-- A latest value (R159, R181). -/
def latestBytes (x : Option LatestValue) : List Byte :=
  optField 8 (x.map fun v => toBytes 2 v.value ++ timeBytes v.time ++ [byte (chainCode v.chain), markByte v.usable])

/-- A sample of the converter with its time (R158, R180). -/
def sampleBytes (x : Option (Nat × Nat)) : List Byte := optField 6 (x.map fun v => toBytes 2 v.1 ++ timeBytes v.2)

/-- A leakage record (R177). -/
def leakageBytes (x : Option Leakage) : List Byte :=
  optField 9 (x.map fun v => toBytes 3 v.value ++ toBytes 2 v.round ++ timeBytes v.time)

/-- The break record: present 0 or 1, the range with the names of its ends, the time (R21, R180). -/
def breakBytes : Option (BreakRecord × Option (ReducedName × ReducedName)) → List Byte
  | none => [byte 0]
  | some (x, ends) => [byte 1, byte x.first, byte x.last] ++ endsBytes ends ++ timeBytes x.time

/-- Section SUMMARY (R180). -/
def LineSummary.bytes (x : LineSummary) : List Byte :=
  [byte x.mode.code, byte x.n, markByte x.loopUnusable, byte x.topology.code, markByte x.rejoinPending, byte x.b,
    byte x.r, x.states.fwd.code, x.states.ret.code] ++ breakBytes x.breakRec ++ [byte x.measureMode.code] ++
    optField 1 (x.pendingMode.map fun m => [byte m.code]) ++
    optField 4 (x.round.map fun r => [byte (chainCode r.1), r.2.1.code] ++ toBytes 2 r.2.2) ++ toBytes 2 x.roundNo ++
    [x.samples.forwardV, x.samples.forwardI, x.samples.returnV, x.samples.returnI, x.samples.supplyV].flatMap sampleBytes ++
    leakageBytes x.leakage.fwd ++ leakageBytes x.leakage.ret ++ [byte x.alerts]

/-- A section of READ_LINE (R180, R181). -/
def LineSection.bytes : LineSection → List Byte
  | .summary x => x.bytes
  | .spans xs => xs.flatMap SpanReport.bytes
  | .alerts xs => xs.flatMap LineAlertReport.bytes
  | .values xs => xs.flatMap fun x => latestBytes x.volt ++ latestBytes x.cur

/-- The sixteen counters, in the order of the table of R193. -/
def Counters.bytes (c : Counters) : List Byte :=
  [c.statusFails.fwd, c.statusFails.ret, c.respFails.fwd, c.respFails.ret, c.frameFails.clA, c.frameFails.clB,
    c.frameFails.mp, c.overruns.clA, c.overruns.clB, c.overruns.mp, c.lost.clA, c.lost.clB, c.lost.mp,
    c.abandonedOverflows, c.alertDrops, c.saveFails].map byte

/-- The body of a DONE, by the rule that owns the request. That of WRITE_SETTING names the master between the setting and
its value, 0 for a setting held once: DESIGN CHOICE, log entry 61. -/
def Done.bytes : Done → List Byte
  | .empty => []
  | .queuePage count change page => [byte count, byte change] ++ page.flatMap CallReport.bytes
  | .abandonedPage count overflow page => [byte count, byte overflow] ++ page.flatMap Abandoned.bytes
  | .answered number d k => [byte number, byte (chainCode d), byte k]
  | .slot d k => [byte (chainCode d), byte k]
  | .entry pos record v identity serial =>
    byte pos :: (entryBlock record ++ toBytes 2 v ++ [byte identity.code] ++ optBytes 4 (serial.map (·.toNat)))
  | .version v => toBytes 2 v
  | .settings x mode n => settingsBlock x ++ [byte mode.code, byte n]
  | .store x => x.bytes
  | .setting n m v => [byte n.number, byte (masterCode m)] ++ v.bytes n
  | .poll e => pollBytes e
  | .pollPage e pairs => pollBytes e ++ pairs.flatMap PairReport.bytes
  | .alertsPage count change drops page => [byte count, byte change, byte drops] ++ page.flatMap AlertEntry.bytes
  | .measure mode pending => byte mode.code :: optField 1 (pending.map fun m => [byte m.code])
  | .line change x => x.bytes ++ [byte change]
  | .posts change mode n b r page =>
    [byte change, byte mode.code, byte n, byte b, byte r] ++ page.flatMap PostReport.bytes
  | .counters c => c.bytes

/-! ### Notices and STATUS -/

/-- The body of CALL_OFFER, 46 bytes (R209). -/
def Offer.bytes (o : Offer) : List Byte :=
  [byte o.number, byte o.cls.code, byte o.pos, byte o.identity.code, byte (conditionCode o.condition),
    byte (masterCode o.lastOwner), offerByte o.offer, flagsByte o.flags] ++ timeBytes o.arrival ++
    snapshotBytes o.snapshot

/-- The body of CALL_UPDATE (R85, R102). -/
def Update.bytes (u : Update) : List Byte :=
  [byte u.number, u.cause.code] ++ u.cause.chain ++ [u.state.code, byte u.cls.code, flagsByte u.flags,
    byte (conditionCode u.condition), byte (masterCode u.owner), byte (masterCode u.lastOwner)] ++
    snapshotBytes u.snapshot ++ [byte u.identity.code]

/-- The body of COMPLETION, its request kinds those of POST_READ, POST_WRITE and SAVE (R48, R206, R209). -/
def Completion.bytes : Completion → List Byte
  | .access write pos item result => [byte (if write then 29 else 28), byte pos, byte item] ++ result.bytes
  | .save result version => byte 18 :: (result.bytes ++ toBytes 2 version)

/-- The body of ALERT_REPORT (R154). -/
def Report.bytes (r : Report) : List Byte :=
  [r.cause.code, byte r.entry, byte r.pos] ++ r.name.bytes ++ [byte r.severity.code, byte r.code] ++
    timeBytes r.first ++ toBytes 2 r.value ++ [byte r.drops, byte r.change]

/-- The body of STATUS, 27 bytes (R209). -/
def Status.bytes (x : Status) : List Byte :=
  [byte x.dev.code, byte x.source.code, byte x.topology.code, bitsByte [x.rejoinPending, x.loopUnusable],
    byte x.waiting, byte x.connected] ++ toBytes 2 x.flags.toNat ++ toBytes 2 x.version ++ timeBytes x.time ++
    textBytes 12 x.siteName

/-- The body of a message to a master. -/
def OutMsg.body : OutMsg → List Byte
  | .done _ x => x.bytes
  | .accepted _ => []
  | .refused _ reason owner => [byte reason.code, byte (masterCode owner)]
  | .callOffer o => o.bytes
  | .callWithdrawn number reason => byte number :: reason.bytes
  | .callUpdate u => u.bytes
  | .callEnded number cls pos reason time =>
    [byte number, byte cls.code, byte pos, reason.code] ++ timeBytes time
  | .completion _ c => c.bytes
  | .alertReport r => r.bytes
  | .status x => x.bytes

/-- A message whole: kind, tag, length, body (R182). -/
def OutMsg.bytes (m : OutMsg) : List Byte :=
  [byte m.kindCode, m.tag] ++ toBytes 2 (4 + m.body.length) ++ m.body

/-- The length of a message in bytes (R182). -/
def OutMsg.size (m : OutMsg) : Nat := 4 + m.body.length

end Sys2Proof.Machine
end

