-- ==== Sys2Proof/Machine/Flags.lean ====
section
/-! DEFINITION. Event flags, counters, change numbers, transmit queues and STATUS
(chapter Link Messages and Reporting). -/

namespace Sys2Proof.Machine

/-! ### Event flags (R191, R192) -/

/-- The bit of a flag in the STATUS body (R209). -/
def EventFlag.bit : EventFlag → Nat
  | .queue => 0
  | .abandoned => 1
  | .posts => 2
  | .line => 3
  | .alerts => 4
  | .directory => 5
  | .settings => 6
  | .counters => 7
  | .store => 8

def EventFlag.single (f : EventFlag) : BitVec 9 := 1#9 <<< f.bit

/-- Is the flag set for a master? -/
def State.flag (s : State) (m : Master) (f : EventFlag) : Bool := (s.lifOf m).flags.getLsbD f.bit

/-- Is the flag's mark set in the master's event mask (R192)? -/
def State.masked (s : State) (m : Master) (f : EventFlag) : Bool :=
  (s.cs.settings.eventMask.get m).getLsbD f.bit

/-- Set a flag for one master. From clear to set, unmasked and with the link UP, it makes a STATUS due
(R190). -/
def State.setFlag (m : Master) (f : EventFlag) (s : State) : State :=
  if s.flag m f then s
  else s.modLif m fun l =>
    { l with flags := l.flags ||| f.single
             statusDue := l.statusDue || (s.linkUp m && !s.masked m f) }

/-- Set a flag for all masters, whatever the state of their links (R191). -/
def State.setFlagAll (f : EventFlag) (s : State) : State :=
  ((s.setFlag .clA f).setFlag .clB f).setFlag .mp f

/-- Clear a flag for the master whose read is taken (R191). -/
def State.clearFlag (m : Master) (f : EventFlag) (s : State) : State :=
  s.modLif m fun l => { l with flags := l.flags &&& ~~~f.single }

/-! ### Counters (R193) -/

/-- The advance of a saturating counter of the state, which sets COUNTERS for all masters when it
changes (R193). -/
def State.advance (get : State → Nat) (put : Nat → State → State) (s : State) : State :=
  if get s < 255 then (put (get s + 1) s).setFlagAll .counters else s

def State.countFrameFail (m : Master) (s : State) : State :=
  s.advance (fun t => (t.lifOf m).frameFails) (fun v t => t.modLif m fun l => { l with frameFails := v })

def State.countOverrun (m : Master) (s : State) : State :=
  s.advance (fun t => (t.lifOf m).overruns) (fun v t => t.modLif m fun l => { l with overruns := v })

def State.countLost (m : Master) (s : State) : State :=
  s.advance (fun t => (t.lifOf m).lost) (fun v t => t.modLif m fun l => { l with lost := v })

def State.countStatusFail (d : Chain) (s : State) : State :=
  s.advance (fun t => (t.leOf d).statusFails) (fun v t => t.modLe d fun e => { e with statusFails := v })

def State.countRespFail (d : Chain) (s : State) : State :=
  s.advance (fun t => (t.leOf d).respFails) (fun v t => t.modLe d fun e => { e with respFails := v })

def State.countAbandonedOverflow (s : State) : State :=
  s.advance (fun t => t.cm.overflow) (fun v t => { t with cm := { t.cm with overflow := v } })

def State.countAlertDrop (s : State) : State :=
  s.advance (fun t => t.sp.drops) (fun v t => { t with sp := { t.sp with drops := v } })

def State.countSaveFail (s : State) : State :=
  s.advance (fun t => t.cs.saveFails) (fun v t => { t with cs := { t.cs with saveFails := v } })

/-- The sixteen counters as they stand (R194). -/
def State.counters (s : State) : Counters :=
  { statusFails := ⟨s.le.fwd.statusFails, s.le.ret.statusFails⟩
    respFails := ⟨s.le.fwd.respFails, s.le.ret.respFails⟩
    frameFails := PerMaster.ofFn fun m => (s.lifOf m).frameFails
    overruns := PerMaster.ofFn fun m => (s.lifOf m).overruns
    lost := PerMaster.ofFn fun m => (s.lifOf m).lost
    abandonedOverflows := s.cm.overflow
    alertDrops := s.sp.drops
    saveFails := s.cs.saveFails }

/-- Is any of the sixteen counters above 0? -/
def Counters.anyAbove (c : Counters) : Bool :=
  [c.statusFails.fwd, c.statusFails.ret, c.respFails.fwd, c.respFails.ret,
    c.frameFails.clA, c.frameFails.clB, c.frameFails.mp, c.overruns.clA, c.overruns.clB, c.overruns.mp,
    c.lost.clA, c.lost.clB, c.lost.mp, c.abandonedOverflows, c.alertDrops, c.saveFails].any (0 < ·)

/-- Every counter at 0 (R194). -/
def State.zeroCounters (s : State) : State :=
  { s with
    lif := PerMaster.ofFn fun m => { s.lifOf m with frameFails := 0, overruns := 0, lost := 0 }
    le := ⟨{ s.le.fwd with statusFails := 0, respFails := 0 }, { s.le.ret with statusFails := 0, respFails := 0 }⟩
    cm := { s.cm with overflow := 0 }
    sp := { s.sp with drops := 0 }
    cs := { s.cs with saveFails := 0 } }

/-! ### Flags with change numbers -/

/-- A change at CM that sets QUEUE for all masters and advances the queue change number (R69). -/
def State.queueChanged (s : State) : State :=
  { s with cm := { s.cm with change := wrap255 s.cm.change } }.setFlagAll .queue

/-- A change of the alert table that sets ALERTS and advances the alert change number (R150). -/
def State.alertsChanged (s : State) : State :=
  { s with sp := { s.sp with change := wrap255 s.sp.change } }.setFlagAll .alerts

/-- LS or LM sets LINE; the line change number advances once in an event (R179). -/
def State.lineChanged (s : State) : State :=
  let s := s.setFlagAll .line
  if s.ev.line then s
  else { s with ev := { s.ev with line := true }, lm := { s.lm with change := wrap255 s.lm.change } }

/-- LS sets POSTS; the posts change number advances once in an event (R195). -/
def State.postsChanged (s : State) : State :=
  let s := s.setFlagAll .posts
  if s.ev.posts then s
  else { s with ev := { s.ev with posts := true }, ls := { s.ls with postsChange := wrap255 s.ls.postsChange } }

/-- LS tells LM that the topology has changed; LM acts on it at the end of the part of the event that
did it (R169, log entry 7). -/
def State.topologyTold (s : State) : State :=
  { s with ev := { s.ev with topo := true } }

/-- The end of an event: its marks are cleared. -/
def State.endEvent (s : State) : State :=
  { s with
    ev := {}
    ls := { s.ls with alerts := s.ls.alerts.map fun a => { a with fresh := false } } }

/-! ### Transmit queues (R187) -/

/-- Is the message a notice (R188)? -/
def OutMsg.isNotice : OutMsg → Bool
  | .callOffer _ | .callWithdrawn _ _ | .callUpdate _ | .callEnded .. | .completion .. | .alertReport _ => true
  | _ => false

def OutMsg.isStatus : OutMsg → Bool
  | .status _ => true
  | _ => false

/-- Is there a free place in the master's transmit queue? -/
def Lif.hasRoom (l : Lif) : Bool := l.tx.length < txPlaces

/-- A message joins the tail of the transmit queue when a place is free. -/
def State.enqueue (m : Master) (msg : OutMsg) (s : State) : State :=
  if (s.lifOf m).hasRoom then s.modLif m fun l => { l with tx := l.tx ++ [⟨msg, 0⟩] } else s

/-- A lost notice: the counter advances and QUEUE is set for this master alone (R187). -/
def State.noticeLost (m : Master) (s : State) : State :=
  (s.countLost m).setFlag m .queue

/-- A notice for a master: not queued while its link is DOWN (R123), dropped and counted when the queue
is full (R187). -/
def State.notice (m : Master) (msg : OutMsg) (s : State) : State :=
  if !s.linkUp m then s
  else if (s.lifOf m).hasRoom then s.enqueue m msg
  else s.noticeLost m

/-- A notice to every UP master. -/
def State.noticeAll (msg : OutMsg) (s : State) : State :=
  masters.foldl (fun t m => t.notice m msg) s

/-- The response of a taken request: the take rule keeps a place for it (R185, R187). -/
def State.respond (m : Master) (msg : OutMsg) (s : State) : State := s.enqueue m msg

/-- A transmit queue without the newest notice not yet in transmission; none when no such notice waits. -/
def dropNewestNotice : List TxEntry → Option (List TxEntry)
  | [] => none
  | e :: es =>
    match dropNewestNotice es with
    | some es' => some (e :: es')
    | none => if e.msg.isNotice && e.sent == 0 then some es else none

/-- The BUSY refusal of an overrun (R185, R187): it joins the tail; in a full queue it takes the place of
the newest notice not yet in transmission, which is counted as lost; without one it is discarded. -/
def State.overrunRefusal (m : Master) (tag : Byte) (s : State) : State :=
  if !s.linkUp m then s
  else if (s.lifOf m).hasRoom then s.enqueue m (.refused tag .busy none)
  else
    match dropNewestNotice (s.lifOf m).tx with
    | some tx =>
      (s.modLif m fun l => { l with tx := tx ++ [⟨.refused tag .busy none, 0⟩] }).noticeLost m
    | none => s

/-! ### STATUS (R189, R190) -/

/-- The number of WAITING records (R93). -/
def State.waitingCount (s : State) : Nat := s.cm.queue.countP (·.state == .waiting)

/-- The number of CONNECTED records (R93). -/
def State.connectedCount (s : State) : Nat := s.cm.queue.countP (·.state == .connected)

/-- A STATUS with its content taken now (R189). -/
def State.statusFor (s : State) (m : Master) : Status :=
  { dev := s.dev
    source := s.cs.source
    topology := s.ls.topology
    rejoinPending := s.ls.rejoinPending
    loopUnusable := s.ls.loopUnusable
    waiting := s.waitingCount
    connected := s.connectedCount
    flags := (s.lifOf m).flags
    version := s.cs.version
    time := s.time
    siteName := s.cs.settings.siteName }

/-- A STATUS is made for a master (R189): it replaces one that waits and is not in transmission, joins the
tail when a place is free, and is pending otherwise. -/
def State.makeStatus (m : Master) (s : State) : State :=
  let l := s.lifOf m
  let msg : TxEntry := ⟨.status (s.statusFor m), 0⟩
  let waits := fun (e : TxEntry) => e.msg.isStatus && e.sent == 0
  if l.tx.any waits then s.modLif m fun l => { l with tx := l.tx.filter (fun e => !waits e) ++ [msg] }
  else if l.hasRoom then s.modLif m fun l => { l with tx := l.tx ++ [msg] }
  else s.modLif m fun l => { l with statusPending := true }

end Sys2Proof.Machine
end

