-- ==== Sys2Proof/Machine/Directory.lean ====
section
/-! DEFINITION. Directory entries, identity status and the names of places
(chapter Post Directory and Location Naming). -/

namespace Sys2Proof.Machine

/-! ### Validity and order (R51 to R53) -/

/-- Are all fields of a location record valid (R51, R52)? -/
def LocationRecord.valid (x : LocationRecord) : Bool :=
  validText 1 6 x.route && (x.carriageway == 1 || x.carriageway == 2) && x.chainage ≤ 999999 &&
    validText 1 8 x.label && x.cable ≤ 65535 && (x.ret.all (· ≤ 65535))

/-- Do the entries `a` at `p` and `b` at `q` stand in the order of R53? -/
def ordered (p : Nat) (a : LocationRecord) (q : Nat) (b : LocationRecord) : Bool :=
  if p < q then
    a.cable < b.cable && (match a.ret, b.ret with
      | some x, some y => y < x
      | _, _ => true)
  else if q < p then
    b.cable < a.cable && (match a.ret, b.ret with
      | some x, some y => x < y
      | _, _ => true)
  else true

/-- The nearest position of a list, in its order, whose entry meets a test, with that entry. -/
def State.nearest (s : State) (ps : List Nat) (ok : LocationRecord → Bool) : Option LocationRecord :=
  (ps.filterMap s.entry).find? ok

/-- The test of R53 for a new record at position p: against the nearest DEFINED neighbour on each side,
and against the nearest with a return distance when the record has one. -/
def State.keepsOrder (s : State) (p : Nat) (x : LocationRecord) : Bool :=
  let lower := (positions.filter (· < p)).reverse
  let upper := positions.filter (p < ·)
  let any := fun (_ : LocationRecord) => true
  let hasRet := fun (y : LocationRecord) => y.ret.isSome
  ((s.nearest lower any).all fun y => y.cable < x.cable) &&
  ((s.nearest upper any).all fun y => x.cable < y.cable) &&
  (match x.ret with
   | none => true
   | some v =>
     ((s.nearest lower hasRet).all fun y => y.ret.all (v < ·)) &&
     ((s.nearest upper hasRet).all fun y => y.ret.all (· < v)))

/-! ### Identity status (R59, R60) -/

/-- The identity status of a directory entry and a recorded serial (R59). -/
def identityFor (entry : Option LocationRecord) (recorded : Option Serial) : Identity :=
  match entry with
  | none => .unchecked
  | some x =>
    match x.serial, recorded with
    | some want, some have_ => if want == have_ then .verified else .mismatch
    | _, _ => .unchecked

/-- LS computes the identity status of position p; a change sets POSTS for all masters (R59, R60). -/
def State.computeIdentity (p : Nat) (s : State) : State :=
  let v := identityFor (s.entry p) (s.post p).serial
  if (s.post p).identity == v then s
  else (s.modPost p fun x => { x with identity := v }).postsChanged

/-! ### Names (R61 to R63) -/

/-- The name of the post at position p (R61). -/
def State.postName (s : State) (p : Nat) : PostName :=
  { pos := p, record := s.entry p, identity := (s.post p).identity }

/-- Does span k exist on the line as it stands (R2)? -/
def State.spanExists (s : State) (k : Nat) : Bool :=
  1 ≤ k && (k ≤ s.ls.n || (s.ls.mode == .loop && k == s.ls.n + 1))

/-- The name of the end of a span at position p (R62). -/
def State.endName (s : State) (p : Nat) : EndName :=
  if p == 0 then .forwardPort
  else if s.ls.mode == .loop && p == s.ls.n + 1 then .returnPort
  else .post (s.postName p)

/-- The name of span k: near end k-1, far end k (R62). -/
def State.spanName (s : State) (k : Nat) : SpanName :=
  { near := s.endName (k - 1), far := s.endName k }

/-- The cable distance an end name holds (R62). -/
def EndName.cable : EndName → Option Nat
  | .forwardPort => some 0
  | .post x => x.record.map (·.cable)
  | .returnPort => none

/-- The return distance an end name holds (R62). -/
def EndName.ret : EndName → Option Nat
  | .forwardPort => none
  | .post x => x.record.bind (·.ret)
  | .returnPort => some 0

/-- A range of spans is named by the names of all its spans in rising order (R63). -/
def State.rangeName (s : State) (first last : Nat) : List SpanName :=
  (List.range (last + 1 - first)).map fun i => s.spanName (first + i)

/-- The reduced name of the end at position p, as READ_LINE carries it (R180). -/
def State.reducedEnd (s : State) (p : Nat) : ReducedName :=
  match s.endName p with
  | .post x => { pos := p, identity := some x.identity, cable := x.record.map (·.cable), ret := x.record.bind (·.ret) }
  | _ => { pos := p, identity := none, cable := none, ret := none }

/-- The reduced names of the outer ends of a range of spans; none when a span of it does not exist (R62, R63, R180).
-/
def State.outerEnds (s : State) (first last : Nat) : Option (ReducedName × ReducedName) :=
  if s.spanExists first && s.spanExists last then some (s.reducedEnd (first - 1), s.reducedEnd last) else none

/-- A port end carries its position alone: 0 for the forward port, n+1 for the return port (R180). -/
def State.portName (s : State) : Chain → ReducedName
  | .fwd => { pos := 0, identity := none, cable := none, ret := none }
  | .ret => { pos := s.ls.n + 1, identity := none, cable := none, ret := none }

/-- The reduced name of the post at position p (R180). -/
def State.reducedPost (s : State) (p : Nat) : ReducedName :=
  { pos := p, identity := some (s.post p).identity, cable := (s.entry p).map (·.cable), ret := (s.entry p).bind (·.ret) }

/-! ### Snapshots (R64) -/

/-- The location snapshot of position p as the directory stands (R64). -/
def State.snapshot (s : State) (p : Nat) : Snapshot :=
  { version := s.cs.version, record := s.entry p }

end Sys2Proof.Machine
end

