-- ==== Sys2Proof/Machine/Signalling.lean ====
section
/-! DEFINITION. The control-slot queue of a line end: placing, the arbiter, withdrawal and transfer
(chapter Post Signalling). -/

namespace Sys2Proof.Machine

/-! ### Chains and their posts -/

/-- All positions in the chain order of a chain (R2). -/
def chainOrder : Chain → List Nat
  | .fwd => positions
  | .ret => positions.reverse

/-- Does position p come after position a in chain order (R2)? -/
def afterIn (d : Chain) (a p : Nat) : Bool :=
  match d with
  | .fwd => a < p
  | .ret => p < a

/-- Does chain d serve position p? -/
def State.servedBy (s : State) (d : Chain) (p : Nat) : Bool := (s.post p).serving == some d

/-- The positions a chain serves, in chain order. -/
def State.served (s : State) (d : Chain) : List Nat := (chainOrder d).filter (s.servedBy d)

/-- The QUARANTINED positions of a chain, in chain order. -/
def State.quarantinedOf (s : State) (d : Chain) : List Nat :=
  (s.served d).filter fun p => (s.post p).state == .quarantined

/-- The probe-due flag of a chain without a QUARANTINED position is cleared (R40, R44). -/
def State.settleProbes (s : State) : State :=
  chains.foldl (fun t d => if (t.quarantinedOf d).isEmpty then t.modLe d fun e => { e with probeDue := false } else t) s

/-! ### Placing (R33, R36) -/

/-- A signalling message into a FIFO (R36). -/
def putSignal (p : Nat) (msg : Signal) (q : List SigMsg) : List SigMsg :=
  match q.find? (·.pos == p) with
  | none => q ++ [{ pos := p, msg := msg }]
  | some x => if x.msg == .disconnect then q else q.map fun y => if y.pos == p then { pos := p, msg := msg } else y

/-- CM places a signalling message with the line end that serves the position; for a position that no
chain serves nothing is placed (R36, R118). -/
def State.placeSignal (p : Nat) (msg : Signal) (s : State) : State :=
  match (s.post p).serving with
  | none => s
  | some d => s.modLe d fun e => { e with signalling := putSignal p msg e.signalling }

/-! ### The arbiter (R34, R35, R40) -/

/-- The accesses that wait at a line end. -/
def State.accessesAt (s : State) (d : Chain) : List (Master × Access) :=
  masters.filterMap fun m => ((s.lifOf m).access.filter (·.chain == d)).map fun a => (m, a)

/-- The access of a list that was placed earliest. -/
def oldest : List (Master × Access) → Option (Master × Access)
  | [] => none
  | x :: xs =>
    match oldest xs with
    | none => some x
    | some y => if x.2.order ≤ y.2.order then some x else some y

/-- The target of the next quarantine PROBE (R40). -/
def State.probeTarget (s : State) (d : Chain) : Option Nat :=
  let qs := s.quarantinedOf d
  match (s.leOf d).probePtr with
  | none => qs.head?
  | some a => (qs.find? (afterIn d a)).or qs.head?

def Turn.other : Turn → Turn
  | .measurement => .supervision
  | .supervision => .measurement

/-- The turn that goes when the arbiter reaches rank 5, none when neither has something waiting (R35). -/
def LineEnd.turnFor (e : LineEnd) : Option Turn :=
  let measurement := e.measure.isSome
  let supervision := e.lsMsg.isSome || e.sense.isSome
  if measurement && supervision then some e.turn
  else if measurement then some .measurement
  else if supervision then some .supervision
  else none

/-- The message of rank 5, with the line end as the choice leaves it (R35). -/
def LineEnd.takeTurn (e : LineEnd) : Sent × LineEnd :=
  match e.turnFor with
  | none => (.idle, e)
  | some .measurement =>
    let e1 := { e with turn := .supervision }
    match e.measure with
    | some w => (.line w.pos, { e1 with measure := some { w with flying := true } })
    | none => (.idle, e1)
  | some .supervision =>
    let e1 := { e with turn := .measurement }
    match e.lsMsg with
    | some x => (.ls x.kind x.pos, { e1 with lsMsg := some { x with flying := true } })
    | none =>
      match e.sense with
      | some x => (.sense x.pos x.sensor, { e1 with sense := some { x with flying := true } })
      | none => (.idle, e1)

/-- The arbiter's choice in RUNNING, by rank (R34). -/
def State.chooseRunning (s : State) (d : Chain) : Sent × LineEnd :=
  let e := s.leOf d
  match e.signalling with
  | x :: xs => (.signalling x.pos x.msg, { e with signalling := { x with flying := true } :: xs })
  | [] =>
    match oldest (s.accessesAt d) with
    | some (m, a) => (.access m a.pos a.item a.write a.order, e)
    | none =>
      match (if e.probeDue then s.probeTarget d else none) with
      | some p => (.quarantineProbe p, { e with probePtr := some p, probeDue := false })
      | none => e.takeTurn

/-- The arbiter's choice of the message for one superframe (R34). -/
def State.choose (s : State) (d : Chain) : Sent × LineEnd :=
  let e := s.leOf d
  match e.state with
  | .discovering =>
    match e.discovery with
    | some w => (.discovery w.pos, { e with discovery := some { w with flying := true } })
    | none => (.idle, e)
  | .running => s.chooseRunning d
  | _ => (.idle, e)

/-- The probe counter counts a superframe sent; its return to 0 is marked for PROBE_COUNTER_WRAP (R40,
log entry 5). -/
def LineEnd.countSuperframe (e : LineEnd) : LineEnd :=
  if e.probeCounter ≥ 99 then { e with probeCounter := 0, probeWrapped := true }
  else { e with probeCounter := e.probeCounter + 1 }

/-! ### The end of an access (R48, R49) -/

/-- A master's access ends: its place is freed, and COMPLETION is queued unless it is orphaned (R48). -/
def State.endAccess (m : Master) (r : AccessResult) (s : State) : State :=
  match (s.lifOf m).access with
  | none => s
  | some a =>
    let s := s.modLif m fun l => { l with access := none }
    if a.orphaned then s
    else s.notice m (.completion a.tag (.access a.write.isSome a.pos a.item r))

/-! ### Withdrawal (R43) -/

/-- SP's reading of a chain is withdrawn: the chain has none in flight, and its pair stays due (R147). -/
def State.senseWithdrawn (d : Chain) (s : State) : State :=
  { s with sp := { s.sp with inflight := s.sp.inflight.set d none } }

/-- A target of a round with a new mark. -/
def Round.mark (r : Round) (p : Nat) (v : TargetMark) : Round :=
  { r with targets := r.targets.map fun t => if t.pos == p then { t with mark := v } else t }

/-- A target that waits in the round in flight is SKIPPED (R166). -/
def State.skipTarget (p : Nat) (s : State) : State :=
  match s.lm.round with
  | none => s
  | some r =>
    { s with lm := { s.lm with round := some { r with
        targets := r.targets.map fun t => if t.pos == p && t.mark == .waiting then { t with mark := .skipped } else t } } }

/-- The LINE read of a chain ended without a value, withdrawn or after 3 failures: the target of the round
in flight is SKIPPED (R166). A read of an aborted round concerns no target. -/
def State.lineUnread (d : Chain) (s : State) : State :=
  match s.lm.round with
  | none => s
  | some r =>
    if r.chain != d then s
    else match r.inFlight with
      | none => s
      | some p => { s with lm := { s.lm with round := some { r.mark p .skipped with inFlight := none } } }

/-- The SENSE read of a line end is withdrawn when it is for a position that `hit` names. -/
def State.withdrawSense (d : Chain) (hit : Nat → Bool) (s : State) : State :=
  match (s.leOf d).sense with
  | none => s
  | some x => if hit x.pos then (s.modLe d fun e => { e with sense := none }).senseWithdrawn d else s

/-- The LINE read of a line end is withdrawn when it is for a position that `hit` names. -/
def State.withdrawLine (d : Chain) (hit : Nat → Bool) (s : State) : State :=
  match (s.leOf d).measure with
  | none => s
  | some x => if hit x.pos then (s.modLe d fun e => { e with measure := none }).lineUnread d else s

/-- The accesses of a line end to positions that `hit` names end with NO_POST. -/
def State.withdrawAccesses (d : Chain) (hit : Nat → Bool) (s : State) : State :=
  (s.accessesAt d).foldl (fun t x => if hit x.2.pos then t.endAccess x.1 .noPost else t) s

/-- Every message for a lost position is withdrawn from the queue of line end d, the one of the chain that loses it
(R19, R43). An LS message of the other line end stays: DESIGN CHOICE, log entry 39. -/
def State.withdrawFor (d : Chain) (p : Nat) (s : State) : State :=
  let s := s.modLe d fun e => { e with signalling := e.signalling.filter (·.pos != p) }
  let s := s.withdrawAccesses d (· == p)
  let s := s.withdrawSense d (· == p)
  s.withdrawLine d (· == p)

/-- A line end's control-slot queue is emptied as a whole (R33, R43). -/
def State.emptyQueue (d : Chain) (s : State) : State :=
  let s := s.withdrawAccesses d (fun _ => true)
  let s := s.withdrawSense d (fun _ => true)
  let s := s.withdrawLine d (fun _ => true)
  s.modLe d fun e =>
    { e with
      discovery := none, signalling := [], lsMsg := none, probeDue := false, probeCounter := 0
      probePtr := none, probeWrapped := false, turn := .supervision }

/-! ### Transfer (R44) -/

/-- What waits at LE-R for a position that moves to FORWARD: signalling and accesses pass to LE-F, reads
are withdrawn (R44). The position is forward-served already. -/
def State.transferQueue (p : Nat) (s : State) : State :=
  let moved := ((s.leOf .ret).signalling.filter (·.pos == p)).map fun x => { x with flying := false }
  let s := s.modLe .ret fun e => { e with signalling := e.signalling.filter (·.pos != p) }
  let s := s.modLe .fwd fun e => { e with signalling := e.signalling ++ moved }
  let s := masters.foldl
    (fun t m => t.modLif m fun l =>
      { l with access := l.access.map fun a => if a.chain == .ret && a.pos == p then { a with chain := .fwd } else a }) s
  let s := s.withdrawSense .ret (· == p)
  let s := s.withdrawLine .ret (· == p)
  s.settleProbes

end Sys2Proof.Machine
end

