-- ==== Sys2Proof/Machine/LineState.lean ====
section
/-! DEFINITION. The line supervisor's boundaries, break record, line alerts, topology and line-end states
(chapter The Post Line, R2, R9, R18 to R23), and the start of a rejoin (R25, R27). -/

namespace Sys2Proof.Machine

/-! ### Boundaries (R2) -/

/-- The highest of a list of positions, 0 when it is empty. -/
def highest (ps : List Nat) : Nat := ps.foldl max 0

/-- The forward boundary b (R2). -/
def State.b (s : State) : Nat := highest (s.served .fwd)

/-- The return boundary r (R2). -/
def State.r (s : State) : Nat := (s.served .ret).foldl min (s.ls.n + 1)

/-! ### Line alerts (R23, R181) -/

def LineAlertKind.rank : LineAlertKind → Nat
  | .breakAlert => 0
  | .postSilent => 1
  | .tail => 2
  | .feedFault => 3
  | .length => 4
  | .spanSuspect => 5
  | .leakage => 6

/-- The number by which places of one kind rise. -/
def AlertPlace.rank : AlertPlace → Nat
  | .spans first _ => first
  | .position p => p
  | .lineEnd d | .chain d => chainCode d
  | .forwardPort => 0

def LineAlert.before (x y : LineAlert) : Bool :=
  x.kind.rank < y.kind.rank || (x.kind.rank == y.kind.rank && x.place.rank < y.place.rank)

/-- A new alert into the list: after every alert of earlier events, and among those of this event in the
order of R181. -/
def insertAlert (x : LineAlert) : List LineAlert → List LineAlert
  | [] => [x]
  | y :: ys => if y.fresh && x.before y then x :: y :: ys else y :: insertAlert x ys

def State.setAlerts (xs : List LineAlert) (s : State) : State := { s with ls := { s.ls with alerts := xs } }

def State.hasAlert (s : State) (k : LineAlertKind) (at_ : AlertPlace) : Bool :=
  s.ls.alerts.any fun a => a.kind == k && a.place == at_

/-- Raise a line alert: at most one for each kind and place (R23, R178). -/
def State.raiseAlert (k : LineAlertKind) (at_ : AlertPlace) (s : State) : State :=
  if s.hasAlert k at_ then s
  else (s.setAlerts (insertAlert { kind := k, place := at_, time := s.time, fresh := true } s.ls.alerts)).lineChanged

/-- Clear the line alerts of a kind whose place `hit` names (R23, R178). -/
def State.clearAlerts (k : LineAlertKind) (hit : AlertPlace → Bool) (s : State) : State :=
  let keep := s.ls.alerts.filter fun a => !(a.kind == k && hit a.place)
  if keep.length == s.ls.alerts.length then s else (s.setAlerts keep).lineChanged

def State.clearAlert (k : LineAlertKind) (at_ : AlertPlace) (s : State) : State := s.clearAlerts k (· == at_)

/-! ### The break record (R21) -/

/-- The span range of a break as the line stands (R21). -/
def State.breakRange (s : State) : Nat × Nat :=
  match s.ls.mode with
  | .openLine => (s.b + 1, s.b + 1)
  | .loop => (s.b + 1, s.r)

/-- The BREAK alert's place follows the record (R21). -/
def State.placeBreak (first last : Nat) (s : State) : State :=
  s.setAlerts (s.ls.alerts.map fun a => if a.kind == .breakAlert then { a with place := .spans first last } else a)

/-- A present break record is recomputed (R21). -/
def State.recomputeBreak (s : State) : State :=
  match s.ls.breakRec with
  | none => s
  | some x =>
    let range := s.breakRange
    if x.first == range.1 && x.last == range.2 then s
    else
      let s := { s with ls := { s.ls with breakRec := some { x with first := range.1, last := range.2 } } }
      (s.placeBreak range.1 range.2).lineChanged

/-- The break record is set, or recomputed if present (R11, R15, R20). One that is present keeps its time and its BREAK
alert wherever a rule says that the record is set: DESIGN CHOICE, log entry 48. -/
def State.setBreak (s : State) : State :=
  match s.ls.breakRec with
  | some _ => s.recomputeBreak
  | none =>
    let range := s.breakRange
    let s := { s with ls := { s.ls with breakRec := some { first := range.1, last := range.2, time := s.time } } }
    s.raiseAlert .breakAlert (.spans range.1 range.2)

/-- The break record and its BREAK alert are cleared (R21). -/
def State.clearBreak (s : State) : State :=
  match s.ls.breakRec with
  | none => s
  | some _ => ({ s with ls := { s.ls with breakRec := none } }.clearAlerts .breakAlert fun _ => true).lineChanged

/-! ### Topology and REJOIN_PENDING (R22, R25) -/

def State.running (s : State) (d : Chain) : Bool := (s.leOf d).state == .running

/-- The topology that the line-end states and a rejoin give (R22). -/
def State.topologyFor (s : State) (rejoin : Bool) : Topology :=
  if s.running .fwd && s.running .ret then (if rejoin then .rejoining else .split)
  else if s.running .fwd || s.running .ret then .single
  else .down

/-- REJOIN_PENDING is set or cleared; a change of the marker sets LINE (R22). -/
def State.setPending (v : Bool) (s : State) : State :=
  if s.ls.rejoinPending == v then s else { s with ls := { s.ls with rejoinPending := v } }.lineChanged

/-- A CLAIM waiting at LE-F is abandoned when its rejoin ends (R28, R43). -/
def State.dropClaim (s : State) : State :=
  s.modLe .fwd fun e => { e with lsMsg := e.lsMsg.filter (·.kind != .claim) }

/-- LS recomputes the topology; `rejoin` says whether a rejoin is in progress (R22). That a break record is cleared
with the topology DOWN when LE-F fails, though R11 recomputes it if present, is a DESIGN CHOICE, log entry 38. -/
def State.recomputeTopology (rejoin : Bool) (s : State) : State :=
  let old := s.ls.topology
  let new := s.topologyFor rejoin
  if old == new then s
  else
    let s := ({ s with ls := { s.ls with topology := new } }.lineChanged).topologyTold
    let s := if new == .split then s else s.setPending false
    let s := if old == .rejoining then s.dropClaim else s
    if new == .down then s.clearBreak else s

/-- Is a rejoin in progress (R22, R27)? -/
def State.rejoining (s : State) : Bool := s.ls.topology == .rejoining

/-! ### Line-end states (R9 to R12, R17) -/

/-- LM hears that a line end enters RUNNING or leaves it (R163). -/
def State.measureRequests (d : Chain) (entered : Bool) (s : State) : State :=
  if entered then
    if s.lm.mode == .off then s else { s with lm := { s.lm with fullReq := s.lm.fullReq.set d true } }
  else { s with lm := { s.lm with fullReq := s.lm.fullReq.set d false, focusReq := s.lm.focusReq.set d false } }

/-- The port of a line end that exchanges no superframes carries no frames (R3). -/
def State.quietPort (d : Chain) (s : State) : State :=
  { s with pins := { s.pins with lineOut := s.pins.lineOut.set d [] } }

/-- What a line end does as it leaves a state for `new` (R9, R12, R13, R17). -/
def State.leaveState (d : Chain) (new : LineState) (s : State) : State :=
  let old := (s.leOf d).state
  let s := if old == .running && new != .running then
      (s.modLe d fun e => { e with refind := none }).measureRequests d false else s
  let s := if old == .watching && new != .watching then
      (s.modLe d fun e => { e with ageDue := false }).clearAlerts .tail fun _ => true else s
  let s := if old.active && (new == .off || new == .failed) then s.emptyQueue d else s
  let s := if old.active && !new.active then (s.modLe d fun e => { e with sent := none }).quietPort d else s
  s.modLe d fun e => { e with settle := none, retry := none }

/-- What a line end does as it enters a state (R10 to R12, R15 to R17, R23, R33, R40). -/
def State.startState (d : Chain) (new : LineState) (s : State) : State :=
  match new with
  | .off => s
  | .feeding => s.modLe d fun e => { e with overRun := 0, settle := some (s.time + settleTime) }
  | .discovering => s.modLe d fun e => { e with probeCounter := 0, found := 0 }
  | .running =>
    let s := s.modLe d fun e => { e with refind := some (s.time + refindTime), turn := .supervision }
    (s.clearAlert .feedFault (.lineEnd d)).measureRequests d true
  | .watching =>
    let s := s.modLe d fun e => { e with age := 0, ageDue := false }
    (s.clearAlert .feedFault (.lineEnd d)).clearBreak
  | .failed => s.modLe d fun e => { e with retry := some (s.time + retryTime) }

/-- A line end changes its state, and LS recomputes the topology (R9, R22). -/
def State.enterState (d : Chain) (new : LineState) (s : State) : State :=
  let s := s.leaveState d new
  let s := s.modLe d fun e => { e with state := new }
  (s.startState d new).recomputeTopology s.rejoining

/-! ### Changes of a serving chain -/

/-- The usable marks of a position's latest line values are cleared (R159). -/
def State.unusable (p : Nat) (s : State) : State :=
  let off := fun (v : Option LatestValue) => v.map fun x => { x with usable := false }
  { s with lm := { s.lm with volts := put1 s.lm.volts p (off (at1 s.lm.volts p none))
                             amps := put1 s.lm.amps p (off (at1 s.lm.amps p none)) } }

/-- What LS does when b or r may have changed from the values given (R21, R22, R25). -/
def State.boundaryChanged (b0 r0 : Nat) (s : State) : State :=
  if s.b == b0 && s.r == r0 then s
  else
    let s := s.recomputeBreak
    let s := s.setPending false
    let s := if s.ls.mode == .openLine && s.b == s.ls.n then s.clearBreak else s
    if s.ls.topology == .split && s.b == s.ls.n then s.enterState .ret .watching else s

/-- An entry becomes LOST with serving chain NONE (R11, R19, R29, R41, R42). -/
def State.makeLost (p : Nat) (s : State) : State :=
  (s.modPost p fun x =>
    { x with state := .lost, serving := none, silence := 0, cleanProbes := 0, releaseMark := false
             firstNext := false }).unusable p

/-! ### The start of a rejoin (R25, R27) -/

/-- LE-F sends CLAIM to b+1 as soon as its LS place is free (R27, R33); with every position served
already the rejoin is complete (log entry 11). -/
def State.placeClaim (s : State) : State :=
  if s.b ≥ s.ls.n then s.enterState .ret .watching
  else if (s.leOf .fwd).lsMsg.isSome then s
  else s.modLe .fwd fun e => { e with lsMsg := some { kind := .claim, pos := s.b + 1 } }

/-- The rejoin starts (R27, steps 1 and 2). -/
def State.rejoinStart (s : State) : State := (s.recomputeTopology true).placeClaim

/-- CM's return-chain count (R93). -/
def State.returnCount (s : State) : Nat :=
  s.cm.queue.countP fun c =>
    s.servedBy .ret c.pos && (c.state == .connected || c.state == .held || c.state == .alerting)

/-- A report that the count has reached 0 starts the rejoin while REJOIN_PENDING is set (R25). -/
def State.rejoinIfFreed (s : State) : State :=
  if s.ls.topology == .split && s.ls.rejoinPending && s.returnCount == 0 then s.rejoinStart else s

/-- The break counts as repaired (R24, R25). -/
def State.repaired (s : State) : State :=
  if s.ls.topology != .split then s
  else if s.returnCount == 0 then s.rejoinStart
  else s.setPending true

end Sys2Proof.Machine
end

