-- ==== Sys2Proof/Machine/Crosspoint.lean ====
section
/-! DEFINITION. The voice crosspoint's pools, channel maps and orders (R119, R120). -/

namespace Sys2Proof.Machine

/-- Slots or channels numbered from 1 to k. -/
def numbers (k : Nat) : List Nat := (List.range k).map (· + 1)

/-- How many link channels a master has (R100). -/
def channelCount : Master → Nat
  | .clA | .clB => 8
  | .mp => 1

/-- Does a channel lie within the master's range (R100)? -/
def channelIn (m : Master) (ch : Nat) : Bool := 1 ≤ ch && ch ≤ channelCount m

/-- What a slot of a chain's pool holds. -/
def State.slotOf (s : State) (d : Chain) (slot : Nat) : Option Nat := at1 (s.vx.pools.get d) slot none

/-- What a channel of a master holds. -/
def State.channelOf (s : State) (m : Master) (ch : Nat) : Option Join :=
  match m with
  | .clA => at1 s.vx.mapA ch none
  | .clB => at1 s.vx.mapB ch none
  | .mp => at1 s.vx.mapMp ch none

def State.setSlot (d : Chain) (slot : Nat) (v : Option Nat) (s : State) : State :=
  { s with vx := { s.vx with pools := s.vx.pools.set d (put1 (s.vx.pools.get d) slot v) } }

def State.setChannel (m : Master) (ch : Nat) (v : Option Join) (s : State) : State :=
  { s with vx := match m with
      | .clA => { s.vx with mapA := put1 s.vx.mapA ch v }
      | .clB => { s.vx with mapB := put1 s.vx.mapB ch v }
      | .mp => { s.vx with mapMp := put1 s.vx.mapMp ch v } }

/-- The lowest free slot of a chain's pool (R120). -/
def State.freeSlot (s : State) (d : Chain) : Option Nat := (numbers 6).find? fun k => (s.slotOf d k).isNone

/-- Eight samples of silence. -/
def silence8 : List Byte := List.replicate 8 silenceCode

/-- The voice of k slots or channels, eight samples each, as it is taken: that of a free place is discarded
(R121). The samples of a place that is freed and held anew before the next frame stay: DEDUCED, log entry 13. -/
def heldVoice (k : Nat) (held : Nat → Bool) (voice : List Byte) : List Byte :=
  (numbers k).flatMap fun i => if held i then slice (8 * (i - 1)) 8 voice else silence8

/-- Order Allocate: the slot and the channel hold the call and are joined (R120). -/
def State.allocate (num : Nat) (d : Chain) (slot : Nat) (m : Master) (ch : Nat) (s : State) : State :=
  (s.setSlot d slot (some num)).setChannel m ch (some { call := num, chain := d, slot := slot })

/-- A map or pool without a call's places. -/
def freeOf {α : Type} {n : Nat} (hit : α → Bool) (v : Vector (Option α) n) : Vector (Option α) n :=
  v.map fun x => x.filter fun y => !hit y

/-- Order Free: the call's slot and channel are free and the join ends (R120). -/
def State.freeVoice (num : Nat) (s : State) : State :=
  let held := fun (k : Nat) => k == num
  let joined := fun (j : Join) => j.call == num
  { s with vx := { s.vx with
      pools := ⟨freeOf held s.vx.pools.fwd, freeOf held s.vx.pools.ret⟩
      mapA := freeOf joined s.vx.mapA
      mapB := freeOf joined s.vx.mapB
      mapMp := freeOf joined s.vx.mapMp } }

/-- Order Move: the call's slot is freed, the new one is joined to the call's channel (R120). -/
def State.moveVoice (num : Nat) (m : Master) (ch : Nat) (d : Chain) (slot : Nat) (s : State) : State :=
  (s.freeVoice num).allocate num d slot m ch

end Sys2Proof.Machine
end

