-- ==== Sys2Proof/Machine/Calls.lean ====
section
/-! DEFINITION. The call manager: eligibility, offers, creation, endings, lost and returning posts, moves by
CLAIM and what words and acknowledgements do to calls (chapters The Call Queue, Call Handling Requests). -/

namespace Sys2Proof.Machine

/-! ### Eligibility and offers (R79 to R84) -/

/-- Is a master eligible for a class (R79)? -/
def State.eligible (s : State) (m : Master) (k : CallClass) : Bool :=
  match m, k with
  | .mp, .emergency => !s.linkUp .clA && !s.linkUp .clB
  | _, _ => true

/-- The set E of R81: is the master UP and eligible? -/
def State.inE (s : State) (k : CallClass) (m : Master) : Bool := s.linkUp m && s.eligible m k

/-- Does the master's offer filter accept the call (R80)? -/
def State.accepts (s : State) (m : Master) (c : Call) : Bool :=
  let f := s.cs.settings.offerFilter.get m
  f.positions.getLsbD (c.pos - 1) && f.classes.getLsbD (c.cls.code - 1)

def Preference.master : Preference → Master
  | .target m => m
  | .lastOwner m _ => m

def PerMaster.anySet (x : PerMaster Bool) : Bool := x.clA || x.clB || x.mp

def noOffer : PerMaster Bool := ⟨false, false, false⟩

/-- The offer set of a WAITING call and its overflow flag (R81). -/
def State.offersFor (s : State) (c : Call) : PerMaster Bool × Bool :=
  let inE := s.inE c.cls
  match c.pref.filter fun x => inE x.master with
  | some x => (PerMaster.ofFn (· == x.master), false)
  | none =>
    if c.flags.escalated then (PerMaster.ofFn inE, false)
    else
      let accepted := PerMaster.ofFn fun m => inE m && s.accepts m c
      if accepted.anySet then (accepted, false)
      else
        let all := PerMaster.ofFn inE
        (all, all.anySet)

/-- CALL_OFFER for a record as it stands (R83). -/
def State.offerMsg (s : State) (c : Call) : OutMsg :=
  .callOffer
    { number := c.number, cls := c.cls, pos := c.pos, identity := (s.post c.pos).identity
      condition := c.condition, lastOwner := c.lastOwner, offer := c.offer, flags := c.flags
      arrival := c.arrival, snapshot := c.snapshot }

/-- CALL_UPDATE to the call's owner and to the masters of a set (R85). -/
def State.updateTo (c : Call) (cause : UpdateCause) (whom : Master → Bool) (s : State) : State :=
  let msg := OutMsg.callUpdate
    { number := c.number, cause := cause, state := c.state, cls := c.cls, flags := c.flags
      condition := c.condition, owner := c.owner, lastOwner := c.lastOwner, snapshot := c.snapshot
      identity := (s.post c.pos).identity }
  (masters.filter whom).foldl (fun t m => t.notice m msg) s

/-- CALL_UPDATE for the record with a number to its owner and its offer set (R85). -/
def State.updateCall (num : Nat) (cause : UpdateCause) (s : State) : State :=
  match s.callOf num with
  | none => s
  | some c => s.updateTo c cause fun m => c.owner == some m || c.offer.get m

/-- The notices of a changed offer set (R83). -/
def State.offerNotices (old : PerMaster Bool) (c : Call) (s : State) : State :=
  masters.foldl
    (fun t m =>
      if c.offer.get m && !old.get m then t.notice m (s.offerMsg c)
      else if old.get m && !c.offer.get m then t.notice m (.callWithdrawn c.number .notOffered)
      else t) s

/-- The tone that an offer set calls for (R84). -/
def toneFor (offer : PerMaster Bool) : Signal := .tone (if offer.anySet then .registered else .noService)

/-- The offer set of a WAITING record is computed, with its notices and tone; a preference whose master has
left E ends (R81 to R84). `entry` is the entry into WAITING. -/
def State.reoffer (entry : Bool) (num : Nat) (s : State) : State :=
  match s.callOf num with
  | none => s
  | some c =>
    if c.state != .waiting then s
    else
      let pref := c.pref.filter fun x => s.inE c.cls x.master
      let set := s.offersFor { c with pref := pref }
      let c1 := { c with pref := pref, offer := set.1, flags := { c.flags with overflow := set.2 } }
      let s := s.modCall num fun _ => c1
      let s := s.offerNotices c.offer c1
      if entry || c.offer.anySet != c1.offer.anySet then s.placeSignal c.pos (toneFor c1.offer) else s

/-- A recomputation outside an entry into WAITING: a change of the record advances the queue change number
(R83). -/
def State.refreshOffers (num : Nat) (s : State) : State :=
  let t := s.reoffer false num
  if t.callOf num == s.callOf num then t else t.queueChanged

/-- The offer set of every WAITING call is recomputed, in queue order (R79, R80, R128, R133). -/
def State.refreshAllOffers (s : State) : State :=
  (s.cm.queue.map (·.number)).foldl (fun t num => t.refreshOffers num) s

/-! ### Leaving WAITING (R71, R72, R83) -/

/-- The flags of a call that leaves WAITING (R71). -/
def CallFlags.leave (f : CallFlags) : CallFlags :=
  { f with escalated := false, rescued := false, reconnected := false, overflow := false, transferred := false }

/-- The states whose owner becomes the last owner when a call leaves them (R72). -/
def CallState.owned : CallState → Bool
  | .connected | .held | .alerting => true
  | _ => false

/-- A record in a new state since now: outside WAITING it has neither offer set nor preference, and the
owner that a CONNECTED, HELD or ALERTING call had is its last owner (R72). -/
def Call.enter (c : Call) (st : CallState) (now : Nat) : Call :=
  { c with
    state := st, timer := now, offer := noOffer, pref := none, flags := c.flags.leave
    lastOwner := if c.state.owned then c.owner.or c.lastOwner else c.lastOwner
    reminderBase := if st == .held then some now else none
    stage := none, toneTimer := none }

/-- CALL_WITHDRAWN to the masters of a former offer set, but one (R83). -/
def State.withdrawOffers (num : Nat) (old : PerMaster Bool) (reason : WithdrawReason) (but : Option Master)
    (s : State) : State :=
  (masters.filter fun m => old.get m && but != some m).foldl (fun t m => t.notice m (.callWithdrawn num reason)) s

/-- A record enters WAITING with its flags and preference as `f` sets them (R71, R72, R84). -/
def State.enterWaiting (num : Nat) (f : Call → Call) (s : State) : State :=
  let s := s.modCall num fun c =>
    f { c.enter .waiting s.time with owner := none, slot := none, channel := none }
  (s.reoffer true num).queueChanged

/-- The LAST_OWNER preference of a call, when its last owner is UP and eligible (R82). -/
def State.lastOwnerPref (s : State) (c : Call) : Option Preference :=
  (c.lastOwner.filter fun m => s.inE c.cls m).map fun m => .lastOwner m (s.time + preferenceTime)

/-! ### The allocator and the queue order (R76, R78) -/

/-- Is a number held by a live record or an abandoned entry (R78)? -/
def State.numberHeld (s : State) (k : Nat) : Bool :=
  s.cm.queue.any (·.number == k) || s.cm.abandoned.any (·.number == k)

/-- The numbers in the order in which the allocator tries them after `last` (R78). -/
def allocatorOrder (last : Nat) : List Nat := (List.range 255).map fun i => (last + i) % 255 + 1

/-- The number of the next new record (R78). -/
def State.nextNumber (s : State) : Nat :=
  ((allocatorOrder s.cm.lastNumber).find? fun k => !s.numberHeld k).getD 0

/-- A record into the queue, immediately after the last whose class ranks equal or higher (R76). -/
def insertCall (c : Call) : List Call → List Call
  | [] => [c]
  | x :: xs =>
    if (x :: xs).any (fun y => y.cls.code ≤ c.cls.code) then x :: insertCall c xs else c :: x :: xs

/-! ### Endings (R88, R89, R94, R95) -/

/-- An entry into the abandoned-call list, the oldest giving way in a full list (R94, R95). -/
def State.addAbandoned (x : Abandoned) (s : State) : State :=
  let s := if s.cm.abandoned.length < 8 then s
    else { s with cm := { s.cm with abandoned := s.cm.abandoned.drop 1 } }.countAbandonedOverflow
  { s with cm := { s.cm with abandoned := s.cm.abandoned ++ [x] } }.setFlagAll .abandoned

/-- Does an ending leave an abandoned entry (R94)? -/
def leavesEntry (c : Call) (reason : EndReason) : Bool :=
  (c.cls == .emergency || c.cls == .service) && !c.flags.everConnected &&
    (reason == .callerGone || reason == .closed)

/-- The release message of an ending, for a served post (R89). `silent` marks CALLER_GONE at the first word
after a resumption, which places nothing. -/
def State.releasePost (c : Call) (reason : EndReason) (silent : Bool) (s : State) : State :=
  if (s.post c.pos).serving.isNone || silent then s
  else
    match reason with
    | .callerGone | .callerCleared | .testExpired =>
      (s.placeSignal c.pos .disconnect).setMark c.pos (some c.serial)
    | .noAnswer | .calloutAbandoned => s.placeSignal c.pos .stopRing
    | .clearedByControl | .closed => s

/-- A live record ends (R88). -/
def State.endCall (num : Nat) (reason : EndReason) (silent : Bool) (s : State) : State :=
  match s.callOf num with
  | none => s
  | some c =>
    let s := s.freeVoice num
    let s := s.withdrawOffers num c.offer .ended none
    let s := if leavesEntry c reason then
        s.addAbandoned { number := num, pos := c.pos, name := c.snapshot, cls := c.cls, arrival := c.arrival
                         ended := s.time, reason := reason }
      else s
    let s := s.releasePost c reason silent
    let s := s.setQueue (s.cm.queue.filter fun x => x.number != num)
    let s := s.noticeAll (.callEnded num c.cls c.pos reason s.time)
    s.queueChanged

/-! ### Registering a call (R73 to R75) -/

def Request.class? : Request → Option CallClass
  | .idle => none
  | .emergency => some .emergency
  | .service => some .service
  | .test => some .test

/-- A post's request creates a record (R70, R73). -/
def State.createCall (p : Nat) (k : CallClass) (hookOff : Bool) (s : State) : State :=
  let num := s.nextNumber
  let c : Call :=
    { number := num, cls := k, pos := p, serial := (s.post p).serial.getD 0, state := .waiting
      arrival := s.time, timer := s.time, hookOff := hookOff, offer := noOffer, owner := none
      lastOwner := none, pref := none, slot := none, channel := none, snapshot := s.snapshot p
      condition := s.conditionOf p
      flags := { degraded := (s.post p).state == .quarantined }
      stage := none, toneTimer := none, reminderBase := none, resumed := false }
  let s := { s with cm := { s.cm with lastNumber := num, queue := insertCall c s.cm.queue } }
  (s.reoffer true num).queueChanged

/-- Has a record reached its escalation (R86)? -/
def State.escalates (s : State) (c : Call) : Bool :=
  c.state == .waiting && (c.cls == .emergency || c.cls == .service) && !c.flags.escalated &&
    s.cs.settings.escalationTime != 0 && c.timer + s.cs.settings.escalationTime * 1000 ≤ s.time

/-- A record escalates (R86). -/
def State.escalate (num : Nat) (s : State) : State :=
  match s.callOf num with
  | none => s
  | some c =>
    let pref := c.pref.filter fun x => match x with
      | .target _ => false
      | .lastOwner _ _ => true
    let s := s.modCall num fun x => { x with pref := pref, flags := { x.flags with escalated := true } }
    let s := s.reoffer false num
    let s := match s.callOf num with
      | none => s
      | some c1 => s.updateTo c1 .escalated fun m => c.offer.get m && c1.offer.get m
    s.queueChanged

/-- A record whose escalation time has been reached escalates, if it has one (R75, R86). -/
def State.escalateIfDue (num : Nat) (s : State) : State :=
  match s.callOf num with
  | none => s
  | some c => if s.escalates c then s.escalate num else s

/-- A SERVICE or TEST record is upgraded to a class of higher rank (R75). -/
def State.upgrade (num : Nat) (k : CallClass) (s : State) : State :=
  match s.callOf num with
  | none => s
  | some c =>
    let rest := s.cm.queue.filter fun x => x.number != num
    let s := s.setQueue (insertCall { c with cls := k } rest)
    let s := s.updateCall num .upgraded
    ((s.reoffer false num).queueChanged).escalateIfDue num

/-! ### Clearing (R110) -/

/-- The release stage of a CLEARING record begins: DISCONNECT is placed (R110). The change of the stage sets QUEUE: DESIGN
CHOICE, log entry 59. -/
def State.releaseStage (num p : Nat) (s : State) : State :=
  ((s.modCall num fun c => { c with stage := some .release, toneTimer := none }).placeSignal p .disconnect).queueChanged

/-- A record enters CLEARING (R109, R110). -/
def State.enterClearing (num : Nat) (s : State) : State :=
  match s.callOf num with
  | none => s
  | some c =>
    let s := s.freeVoice num
    let s := s.modCall num fun x =>
      { x.enter .clearing s.time with
        slot := none, channel := none
        stage := some (if x.hookOff then .tone else .release) }
    let s := s.withdrawOffers num c.offer .notOffered none
    let s := s.placeSignal c.pos (if c.hookOff then .tone .cleared else .disconnect)
    s.queueChanged

/-! ### Words (R73, R74, R91, R116, R117) -/

/-- The off-hook of an ALERTING record connects it (R114). -/
def State.connectAlerting (num : Nat) (s : State) : State :=
  match s.callOf num with
  | none => s
  | some c =>
    let s := s.modCall num fun x =>
      { x.enter .connected s.time with flags := { x.flags.leave with everConnected := true } }
    let s := match c.slot with
      | some (_, slot) => s.placeSignal c.pos (.connect slot)
      | none => s
    s.queueChanged

/-- What the hook of a word does to a record (R74, R116, R117). -/
def State.hookWord (num : Nat) (off : Bool) (s : State) : State :=
  match s.callOf num with
  | none => s
  | some c =>
    if c.hookOff == off then s
    else
      let s := (s.modCall num fun x => { x with hookOff := off })
      match c.state, off with
      | .waiting, false => s.endCall num .callerGone false
      | .connected, false | .held, false => s.endCall num .callerCleared false
      | .clearing, false => if c.stage == some .tone then s.releaseStage num c.pos else s.queueChanged
      | .alerting, true => s.connectAlerting num
      | _, _ => s.queueChanged

/-- What the request of a word does to a record: one of higher rank upgrades a SERVICE or TEST record
(R74, R75). -/
def State.requestWord (num : Nat) (req : Request) (s : State) : State :=
  match s.callOf num, req.class? with
  | some c, some k =>
    if (c.cls == .service || c.cls == .test) && k.code < c.cls.code then s.upgrade num k else s
  | _, _ => s

/-- CM takes a word that LS hands it (R73, R74, R91). A resumed record ends CALLER_GONE at request NONE whatever its
state is by then: DESIGN CHOICE, log entry 41. -/
def State.callWord (p : Nat) (w : StatusWord) (s : State) : State :=
  match s.callAt p with
  | none =>
    match w.request.class? with
    | none => s
    | some k => if (s.markOf p).isSome then s else s.createCall p k w.hookOff
  | some c =>
    let s := s.modCall c.number fun x => { x with resumed := false }
    if c.resumed && w.request == .idle then s.endCall c.number .callerGone true
    else (s.requestWord c.number w.request).hookWord c.number w.hookOff

/-- CM takes the ACK of a signalling message (R37, R89, R110). A second ACK of TONE CLEARED leaves a running cleared-tone
timer as it is: DESIGN CHOICE, log entry 53. That the start of the timer is a change of the record, which sets QUEUE and
advances the change number, is a DESIGN CHOICE too, log entry 59. -/
def State.callAck (p : Nat) (msg : Signal) (s : State) : State :=
  match msg with
  | .disconnect =>
    let s := s.setMark p none
    match s.callAt p with
    | some c =>
      if c.state == .clearing && c.stage == some .release then s.endCall c.number .clearedByControl false else s
    | none => s
  | .tone .cleared =>
    match s.callAt p with
    | some c =>
      if c.state == .clearing && c.stage == some .tone && c.toneTimer.isNone then
        (s.modCall c.number fun x => { x with toneTimer := some (s.time + clearedToneTime) }).queueChanged
      else s
    | none => s
  | _ => s

/-! ### Lost and returning posts (R89 to R91) -/

/-- A WAITING, CONNECTED or HELD record becomes SEVERED (R90). -/
def State.sever (num : Nat) (s : State) : State :=
  match s.callOf num with
  | none => s
  | some c =>
    let s := s.freeVoice num
    let s := s.modCall num fun x =>
      { x.enter CallState.severed s.time with
        owner := none, slot := none, channel := none, resumed := false }
    let s := s.withdrawOffers num c.offer .notOffered none
    let s := match s.callOf num with
      | none => s
      | some c1 => s.updateTo c1 UpdateCause.severed fun m => c.owner == some m
    s.queueChanged

/-- CM hears that a position is served by no chain (R90). -/
def State.callLost (p : Nat) (s : State) : State :=
  match s.callAt p with
  | none => s
  | some c =>
    match c.state with
    | .waiting | .connected | .held => s.sever c.number
    | .clearing => s.endCall c.number .clearedByControl false
    | .alerting => s.endCall c.number .noAnswer false
    | CallState.severed => s

/-- A SEVERED record whose post is served again with the same serial resumes (R91). -/
def State.resume (num : Nat) (s : State) : State :=
  s.enterWaiting num fun c =>
    { c with
      pref := s.lastOwnerPref c, resumed := true
      flags := { c.flags with reconnected := true, degraded := (s.post c.pos).state == .quarantined } }

/-- The release mark of a position that is served again (R89). -/
def State.markServed (p : Nat) (serial : Serial) (s : State) : State :=
  match s.markOf p with
  | none => s
  | some x => if x == serial then s.placeSignal p .disconnect else s.setMark p none

/-- CM hears that a position is served again, with its serial (R14, R89, R91). -/
def State.callServed (p : Nat) (serial : Serial) (s : State) : State :=
  let s := match s.callAt p with
    | none => s
    | some c =>
      if c.state != CallState.severed then s
      else if c.serial == serial then s.resume c.number
      else s.endCall c.number .closed false
  s.markServed p serial

/-! ### Moves by CLAIM (R122) -/

/-- A call's slot and the record's field name a forward slot (R122). -/
def State.moveSlot (c : Call) (slot : Nat) (s : State) : State :=
  let s := match c.owner, c.channel with
    | some m, some ch => s.moveVoice c.number m ch .fwd slot
    | _, _ => s
  (s.modCall c.number fun x => { x with slot := some (.fwd, slot) }).queueChanged

/-- CM hears that a post has moved from the return chain to the forward chain (R122). -/
def State.callMoved (p : Nat) (s : State) : State :=
  match s.callAt p with
  | none => s
  | some c =>
    match c.state, s.freeSlot .fwd with
    | .connected, some slot => (s.moveSlot c slot).placeSignal p (.connect slot)
    | .connected, none =>
      (s.freeVoice c.number).enterWaiting c.number fun x =>
        { x with pref := s.lastOwnerPref x, flags := { x.flags with rescued := true } }
    | .alerting, some slot => s.moveSlot c slot
    | .alerting, none => s.endCall c.number .noAnswer false
    | _, _ => s

/-! ### Degraded, condition, snapshot (R65, R71, R85, R156) -/

/-- A change of the live record of a position that is reported by CALL_UPDATE. -/
def State.changeCallAt (p : Nat) (f : Call → Call) (cause : UpdateCause) (s : State) : State :=
  match s.callAt p with
  | none => s
  | some c => ((s.modCall c.number f).updateCall c.number cause).queueChanged

/-- CM hears that a post became QUARANTINED or returned to ACTIVE (R85). -/
def State.callDegraded (p : Nat) (v : Bool) (s : State) : State :=
  match s.callAt p with
  | none => s
  | some c =>
    if c.flags.degraded == v then s
    else s.changeCallAt p (fun x => { x with flags := { x.flags with degraded := v } }) .degraded

/-- CM hears of a change of a post's condition (R156). -/
def State.callCondition (p : Nat) (v : Option Severity) (s : State) : State :=
  s.changeCallAt p (fun x => { x with condition := v }) .condition

/-- The snapshot of the live record of a position is renewed (R65). -/
def State.renewSnapshot (p : Nat) (s : State) : State :=
  s.changeCallAt p (fun x => { x with snapshot := s.snapshot p, flags := { x.flags with renamed := true } }) .renamed

end Sys2Proof.Machine
end

