-- ==== Sys2Proof/Machine/Supervision.lean ====
section
/-! DEFINITION. The supervision poller: pairs, scheduling, judging of readings, the alert table and the post
conditions (chapter Post Supervision). -/

namespace Sys2Proof.Machine

/-- Poll entry e, 0 to 31; a disabled entry outside. -/
def State.pollEntry (s : State) (e : Nat) : PollEntry := at1 s.sp.table (e + 1) {}

def State.setPairs (xs : List Pair) (s : State) : State := { s with sp := { s.sp with pairs := xs } }

def State.setAlertTable (xs : List Alert) (s : State) : State := { s with sp := { s.sp with alerts := xs } }

/-- The pair of an entry and a position (R140). -/
def State.pairOf (s : State) (e p : Nat) : Option Pair := s.sp.pairs.find? fun x => x.entry == e && x.pos == p

def State.modPair (e p : Nat) (f : Pair → Pair) (s : State) : State :=
  s.setPairs (s.sp.pairs.map fun x => if x.entry == e && x.pos == p then f x else x)

/-- The alert of a pair, if the table holds one (R150). -/
def State.alertOf (s : State) (e p : Nat) : Option Alert := s.sp.alerts.find? fun a => a.entry == e && a.pos == p

/-- The target positions of an entry (R140). -/
def PollEntry.targets (x : PollEntry) : List Nat :=
  match x.target with
  | none => positions
  | some p => [p]

/-! ### Latest line values (R149, R159) -/

/-- A clean reading of sensor 0 or 1 into the latest values; usable when the chain still serves the post (R159). That a
SENSE value of a post moved by CLAIM meanwhile is stored without the mark is a DESIGN CHOICE, log entry 56. -/
def State.storeValue (d : Chain) (p sensor v : Nat) (s : State) : State :=
  let x : LatestValue := { value := v, time := s.time, chain := d, usable := s.servedBy d p }
  match sensor with
  | 0 => { s with lm := { s.lm with volts := put1 s.lm.volts p (some x) } }
  | 1 => { s with lm := { s.lm with amps := put1 s.lm.amps p (some x) } }
  | _ => s

/-! ### Conditions (R156) -/

/-- The higher of two conditions. -/
def worse (x : Option Severity) (y : Severity) : Option Severity :=
  match x with
  | none => some y
  | some v => if v.code < y.code then some y else some v

/-- The condition that the alert table gives a position (R156). -/
def State.conditionNow (s : State) (p : Nat) : Option Severity :=
  (s.sp.alerts.filter (·.pos == p)).foldl (fun acc a => worse acc a.severity) none

/-- SP recomputes the condition of a position and reports a change to CM (R156). -/
def State.computeCondition (p : Nat) (s : State) : State :=
  let v := s.conditionNow p
  if s.conditionOf p == v then s
  else ({ s with sp := { s.sp with conditions := put1 s.sp.conditions p v } }).callCondition p v

/-! ### The alert table (R150 to R154) -/

/-- ALERT_REPORT to every UP master, with the counter and the change number as they now stand (R154). -/
def State.reportAlert (cause : ReportCause) (e p : Nat) (severity : Severity) (code first value : Nat) (s : State) :
    State :=
  s.noticeAll (.alertReport
    { cause := cause, entry := e, pos := p, name := s.postName p, severity := severity, code := code
      first := first, value := value, drops := s.sp.drops, change := s.sp.change })

/-- An alert joins the tail, and ASSERTED is reported (R151), before a CALL_UPDATE of the condition (R156): DESIGN
CHOICE, log entry 65. -/
def State.addAlert (e p v : Nat) (s : State) : State :=
  let x := s.pollEntry e
  let s := (s.setAlertTable (s.sp.alerts ++
    [{ entry := e, pos := p, severity := x.severity, code := x.code, first := s.time, last := v, stale := false }])).alertsChanged
  (s.reportAlert .asserted e p x.severity x.code s.time v).computeCondition p

/-- An alert leaves the table, with its report (R142, R151, R152), before a CALL_UPDATE of the condition (R156): DESIGN
CHOICE, log entry 65. -/
def State.removeAlert (a : Alert) (cause : ReportCause) (value : Nat) (s : State) : State :=
  let s := (s.setAlertTable (s.sp.alerts.filter fun x => !(x.entry == a.entry && x.pos == a.pos))).alertsChanged
  (s.reportAlert cause a.entry a.pos a.severity a.code a.first value).computeCondition a.pos

/-- The lowest severity code in a table. -/
def lowestCode (xs : List Alert) : Nat := xs.foldl (fun acc a => min acc a.severity.code) 4

/-- The alert of a pair that becomes ASSERTED is raised, evicts another or is dropped (R151). The reports of an eviction
and of a drop carry the alert-drop counter (R154) as the event has advanced it: DESIGN CHOICE, log entry 64. -/
def State.raisePairAlert (e p v : Nat) (s : State) : State :=
  if s.sp.alerts.length < 48 then s.addAlert e p v
  else
    let x := s.pollEntry e
    let low := lowestCode s.sp.alerts
    match s.sp.alerts.find? (·.severity.code == low) with
    | some a =>
      if low < x.severity.code then ((s.countAlertDrop).removeAlert a .evicted v).addAlert e p v
      else ((s.countAlertDrop).setFlagAll .alerts).reportAlert .dropped e p x.severity x.code s.time v
    | none => s

/-- The stale mark of a pair's alert; a change sets ALERTS and advances the alert change number (R153). -/
def State.setStale (e p : Nat) (v : Bool) (s : State) : State :=
  match s.alertOf e p with
  | none => s
  | some a =>
    if a.stale == v then s
    else (s.setAlertTable (s.sp.alerts.map fun x =>
      if x.entry == e && x.pos == p then { x with stale := v } else x)).alertsChanged

/-- Every alert of a position becomes stale (R153). -/
def State.staleAll (p : Nat) (s : State) : State :=
  (s.sp.alerts.filter (·.pos == p)).foldl (fun t a => t.setStale a.entry p true) s

/-- The alert of a pair that stays ASSERTED takes the new value, and its stale mark is cleared (R148, R149). -/
def State.updateAlert (e p v : Nat) (s : State) : State :=
  (s.setAlertTable (s.sp.alerts.map fun x =>
    if x.entry == e && x.pos == p then { x with last := v } else x)).setStale e p false

/-! ### Judging (R148, R149) -/

/-- Does a value assert a CLEAR pair of the entry (R148)? -/
def PollEntry.asserts (x : PollEntry) (v : Nat) : Bool :=
  match x.mode with
  | .matching => Nat.land v x.mask == x.compare
  | .above => x.compare < v
  | .below => v < x.compare

/-- Does a value clear an ASSERTED pair of the entry (R148)? The limits do not wrap. -/
def PollEntry.clears (x : PollEntry) (v : Nat) : Bool :=
  match x.mode with
  | .matching => Nat.land v x.mask != x.compare
  | .above => v + x.hysteresis ≤ x.compare
  | .below => x.compare + x.hysteresis ≤ v

/-- A clean, not void reading is judged (R148, R149). -/
def State.judge (e p sensor v : Nat) (s : State) : State :=
  match s.pairOf e p with
  | none => s
  | some pair =>
    if (sensor == 0 || sensor == 1) && v == 65535 then s.updateAlert e p v
    else if pair.asserted then
      if (s.pollEntry e).clears v then
        let s := s.modPair e p fun x => { x with asserted := false }
        match s.alertOf e p with
        | some a => s.removeAlert a .deasserted v
        | none => s
      else s.updateAlert e p v
    else if (s.pollEntry e).asserts v then
      (s.modPair e p fun x => { x with asserted := true }).raisePairAlert e p v
    else s

/-! ### The end of a reading (R147) -/

/-- The next-due time one interval from now (R145, R147). -/
def State.deferPair (e p : Nat) (s : State) : State :=
  s.modPair e p fun x => { x with due := s.time + (s.pollEntry e).interval * 1000 }

/-- A reading ends clean with a value (R147). -/
def State.senseClean (d : Chain) (v : Nat) (s : State) : State :=
  match s.sp.inflight.get d with
  | none => s
  | some x =>
    let s := s.senseWithdrawn d
    if x.void then s else (s.judge x.entry x.pos x.sensor v).deferPair x.entry x.pos

/-- A reading ends after 3 failed attempts (R147). -/
def State.senseFailed (d : Chain) (s : State) : State :=
  match s.sp.inflight.get d with
  | none => s
  | some x =>
    let s := s.senseWithdrawn d
    if x.void then s else s.deferPair x.entry x.pos

/-! ### Scheduling (R144 to R146) -/

def State.activePost (s : State) (p : Nat) : Bool := (s.post p).state == .active

/-- A due pair whose position is not ACTIVE is skipped (R145). -/
def State.skipPairs (s : State) : State :=
  s.setPairs (s.sp.pairs.map fun x =>
    if x.due ≤ s.time && !s.activePost x.pos then
      { x with due := s.time + (s.pollEntry x.entry).interval * 1000 } else x)

/-- The order in which due pairs of a chain are read (R146). -/
def Pair.before (x y : Pair) : Bool :=
  x.due < y.due || (x.due == y.due && (x.entry < y.entry || (x.entry == y.entry && x.pos < y.pos)))

/-- The first of a list of pairs in the order of R146. -/
def firstPair : List Pair → Option Pair
  | [] => none
  | x :: xs =>
    match firstPair xs with
    | none => some x
    | some y => if x.before y then some x else some y

/-- The due pair that chain d reads next (R146). -/
def State.nextPair (s : State) (d : Chain) : Option Pair :=
  firstPair (s.sp.pairs.filter fun x => x.due ≤ s.time && s.activePost x.pos && s.servedBy d x.pos)

/-- SP places a reading with a chain when it may (R146). -/
def State.placeReading (d : Chain) (s : State) : State :=
  if (s.sp.inflight.get d).isSome || (s.leOf d).sense.isSome then s
  else
    match s.nextPair d with
    | none => s
    | some x =>
      let sensor := (s.pollEntry x.entry).sensor
      let s := { s with sp := { s.sp with
          inflight := s.sp.inflight.set d (some { entry := x.entry, pos := x.pos, sensor := sensor, void := false }) } }
      s.modLe d fun e => { e with sense := some { pos := x.pos, sensor := sensor } }

/-- SP skips what must be skipped and looks at both chains for a reading to place (R145, R146). -/
def State.spSettle (s : State) : State := ((s.skipPairs).placeReading .fwd).placeReading .ret

/-- Every pair of a position is due at once (R144). -/
def State.duePairs (p : Nat) (s : State) : State :=
  s.setPairs (s.sp.pairs.map fun x => if x.pos == p then { x with due := s.time } else x)

/-! ### WRITE_POLL and RESTART_LINE (R142, R157) -/

/-- The pairs of an entry are formed anew (R142, step 3). -/
def State.formPairs (e : Nat) (s : State) : State :=
  let x := s.pollEntry e
  let new := if x.enabled then x.targets.map fun p => { entry := e, pos := p, asserted := false, due := s.time } else []
  s.setPairs (s.sp.pairs.filter (·.entry != e) ++ new)

/-- A reading in flight for an entry is marked void (R142, step 4). -/
def State.voidReadings (e : Nat) (s : State) : State :=
  let mark := fun (x : Option Reading) => x.map fun y => if y.entry == e then { y with void := true } else y
  { s with sp := { s.sp with inflight := ⟨mark s.sp.inflight.fwd, mark s.sp.inflight.ret⟩ } }

/-- An entry of the poll table is replaced (R140, R142, step 1). -/
def State.putPoll (e : Nat) (x : PollEntry) (s : State) : State :=
  { s with sp := { s.sp with table := put1 s.sp.table (e + 1) x } }

/-- Steps 2 to 5 of an accepted WRITE_POLL, the entry replaced already (R142). The alerts leave oldest first, each
report followed by the CALL_UPDATE it causes: DESIGN CHOICE, log entry 44. -/
def State.applyPoll (e : Nat) (s : State) : State :=
  let s := (s.sp.alerts.filter (·.entry == e)).foldl (fun t a => t.removeAlert a .removed a.last) s
  ((s.formPairs e).voidReadings e).setFlagAll .settings

/-- RESTART_LINE reaches SP (R157). -/
def State.clearAlertTable (s : State) : State :=
  let s := (s.setAlertTable []).setPairs (s.sp.pairs.map fun x => { x with asserted := false })
  let s := positions.foldl (fun t p => t.computeCondition p) s
  s.alertsChanged

end Sys2Proof.Machine
end

