-- ==== Sys2Proof/Machine/Measure.lean ====
section
/-! DEFINITION. The line monitor: samples, modes, rounds, span arithmetic, classification and leakage
(chapter Line Measurement and Fault Location). -/

namespace Sys2Proof.Machine

/-! ### The cabinet converter (R158) -/

def channelV : Chain → ConverterChannel
  | .fwd => .forwardV
  | .ret => .returnV

def channelI : Chain → ConverterChannel
  | .fwd => .forwardI
  | .ret => .returnI

/-- The code that a sample of a channel reads now. -/
def State.codeOf (s : State) (c : ConverterChannel) : Nat := (s.pins.converter.get c).toNat

/-- A sample of a channel has been taken: the next one reads a free value (log entry 3). -/
def State.sampled (c : ConverterChannel) (s : State) : State :=
  { s with pins := { s.pins with
      converter := s.pins.converter.set c (Config.converterCode s.pins.samples)
      samples := s.pins.samples + 1 } }

/-- LM takes a round sample of a channel and keeps it with its time (R158). -/
def State.roundSample (c : ConverterChannel) (s : State) : State :=
  ({ s with lm := { s.lm with samples := s.lm.samples.set c (some (s.codeOf c, s.time)) } }).sampled c

/-- The code that means over-range (R158). -/
def overRange : Nat := 4095

/-- The value of a post reading that means saturated (R139). -/
def saturated : Nat := 65535

/-! ### Ranges and spans (R165, R171) -/

/-- The range of a chain, in chain order (R165). -/
def State.range (s : State) (d : Chain) : List Nat :=
  match d with
  | .fwd => numbers s.b
  | .ret => ((numbers s.ls.n).filter (s.r ≤ ·)).reverse

/-- The spans a chain computes, in chain order (R171). -/
def State.spansOf (s : State) (d : Chain) : List Nat :=
  match d with
  | .fwd => numbers s.b
  | .ret => ((numbers (s.ls.n + 1)).filter (s.r < ·)).reverse

/-- The near end of span k on a chain (R171). -/
def nearEnd (d : Chain) (k : Nat) : Nat :=
  match d with
  | .fwd => k - 1
  | .ret => k

/-- The far end of span k on a chain (R171). -/
def farEnd (d : Chain) (k : Nat) : Nat :=
  match d with
  | .fwd => k
  | .ret => k - 1

/-- Is a position the port end of its chain? -/
def State.isPort (s : State) (d : Chain) (p : Nat) : Bool :=
  match d with
  | .fwd => p == 0
  | .ret => p == s.ls.n + 1

def State.span (s : State) (k : Nat) : Span := at1 s.lm.spans k {}

def State.setSpan (k : Nat) (x : Span) (s : State) : State :=
  { s with lm := { s.lm with spans := put1 s.lm.spans k x } }

/-- Is a span's class HIGH or LOW? -/
def SpanClass.abnormal : SpanClass → Bool
  | .high | .low => true
  | _ => false

/-- The spans of a chain whose class is HIGH or LOW (R163, R167). -/
def State.selected (s : State) (d : Chain) : List Nat := (s.spansOf d).filter fun k => (s.span k).cls.abnormal

/-! ### The inputs of a span (R167, R171, R172) -/

def Round.target (r : Round) (p : Nat) : Option Target := r.targets.find? (·.pos == p)

def Round.readTarget (r : Round) (p : Nat) : Option Target := (r.target p).filter (·.mark == .read)

/-- The posts of the chain's range before the far end of span k, in chain order (R167, R171). -/
def State.before (s : State) (d : Chain) (k : Nat) : List Nat :=
  match d with
  | .fwd => numbers (k - 1)
  | .ret => ((numbers s.ls.n).filter (k ≤ ·)).reverse

/-- The consumption of one post: read in this round or, in a focused round, its latest usable current (R167,
R171). -/
def State.consumption (s : State) (r : Round) (p : Nat) : Option Nat :=
  match r.readTarget p with
  | some t => some t.cur
  | none =>
    match r.kind with
    | .full => none
    | .focused => ((at1 s.lm.amps p none).filter fun x => x.usable && x.chain == r.chain).map (·.value)

/-- All of a list of optional numbers; none when one is missing. -/
def allOf : List (Option Nat) → Option (List Nat)
  | [] => some []
  | x :: xs =>
    match x, allOf xs with
    | some v, some vs => some (v :: vs)
    | _, _ => none

/-- The inputs of a span that passed the first check of R172. -/
structure SpanInputs where
  vNear : Nat
  vFar : Nat
  used : List Nat
  iCode : Nat

/-- The voltage at the near end: the cabinet's for a port, the post's read in this round otherwise (R171). -/
def State.nearVolt (s : State) (r : Round) (k : Nat) : Option Nat :=
  if s.isPort r.chain (nearEnd r.chain k) then some (r.v0 * 16)
  else (r.readTarget (nearEnd r.chain k)).map (·.volt)

/-- The inputs of span k, none when the span is SKIPPED (R167, R171, R172). -/
def State.spanInputs (s : State) (r : Round) (k : Nat) : Option SpanInputs :=
  match s.nearVolt r k, r.readTarget (farEnd r.chain k), allOf ((s.before r.chain k).map (s.consumption r)) with
  | some near, some far, some used =>
    some { vNear := near, vFar := far.volt, used := used, iCode := if r.paired then far.paired.getD r.i0 else r.i0 }
  | _, _, _ => none

/-- The current J_k that crosses the span, in microamperes (R171). -/
def SpanInputs.current (x : SpanInputs) : Int := (x.iCode * 250 : Int) - (x.used.sum : Int)

/-- The drop over the span, in millivolts (R171). -/
def SpanInputs.drop (x : SpanInputs) : Int := (x.vNear : Int) - (x.vFar : Int)

/-- The checks of R172 after the first, with the reason of the first that fails. -/
def SpanInputs.invalid (r : Round) (x : SpanInputs) : Option InvalidReason :=
  if r.v0 == overRange || r.i0 == overRange || x.iCode == overRange || x.vNear == saturated ||
      x.vFar == saturated || x.used.any (· == saturated) then some .saturated
  else if x.current ≤ 0 then some .noCurrent
  else if x.drop < 0 then some .negativeDrop
  else none

/-! ### Resistance, rating and classification (R173 to R176) -/

/-- R_k in tenths of an ohm (R173). -/
def resistance (drop current : Nat) : Nat := min 65535 ((drop * 10000 + current / 2) / current)

/-- The distance of an end of a span on a chain (R174). -/
def State.distance (s : State) (d : Chain) (p : Nat) : Option Nat :=
  if s.isPort d p then some 0
  else
    match d with
    | .fwd => (s.entry p).map (·.cable)
    | .ret => (s.entry p).bind (·.ret)

/-- E_k in tenths of an ohm; none when the span is UNRATED (R174). -/
def State.expected (s : State) (d : Chain) (k : Nat) : Option Nat :=
  match s.distance d (nearEnd d k), s.distance d (farEnd d k) with
  | some near, some far =>
    let e := ((far - near) * s.cs.settings.loopResistance + 500) / 1000
    if e == 0 then none else some (min 65535 e)
  | _, _ => none

/-- The four thresholds as clamped at a classification (R175). -/
def State.thresholds (s : State) : Thresholds :=
  let x := s.cs.settings
  { highEnter := x.highEnter, highLeave := min x.highLeave (x.highEnter - 1)
    lowEnter := x.lowEnter, lowLeave := max x.lowLeave (x.lowEnter + 1) }

/-- The class after a computation, from the class before and the ratio (R175). -/
def classify175 (t : Thresholds) (before : SpanClass) (ratio : Nat) : SpanClass :=
  match before with
  | .high =>
    if ratio ≤ t.highLeave then (if ratio < t.lowEnter then .low else .normal) else .high
  | .low =>
    if t.lowLeave ≤ ratio then (if t.highEnter < ratio then .high else .normal) else .low
  | _ => if t.highEnter < ratio then .high else if ratio < t.lowEnter then .low else .normal

/-- The line alert of a span follows its suspect flag, and LINE is set when class or flag changed (R176,
R178). -/
def State.spanChanged (k : Nat) (old new : Span) (s : State) : State :=
  let s := if old.cls == new.cls && old.suspect == new.suspect then s else s.lineChanged
  if new.suspect then s.raiseAlert .spanSuspect (.spans k k) else s.clearAlert .spanSuspect (.spans k k)

/-- A valid span of resistance `res` as rated (R170, R174 to R176). -/
def State.rated (s : State) (d : Chain) (k res : Nat) (x : Span) : Span :=
  let y := { x with r := some res, invalid := none }
  match s.expected d k with
  | none => { y with e := none, ratio := none, used := none, cls := .unrated, abnormal := 0, suspect := false }
  | some e =>
    let ratio := min 999 (res * 100 / e)
    let t := s.thresholds
    let cls := classify175 t x.cls ratio
    let count := if cls.abnormal then min 255 (x.abnormal + 1) else 0
    { y with
      e := some e, ratio := some ratio, used := some t, cls := cls, abnormal := count
      suspect := if cls.abnormal then x.suspect || 3 ≤ count else false }

/-- Span k is marked INVALID (R170). -/
def State.invalidSpan (r : Round) (k : Nat) (reason : InvalidReason) (s : State) : State :=
  s.setSpan k { s.span k with invalid := some reason, chain := some r.chain, round := some r.number }

/-- Span k is computed in a round (R170 to R176). -/
def State.computeSpan (r : Round) (k : Nat) (s : State) : State :=
  match s.spanInputs r k with
  | none => s.invalidSpan r k .skipped
  | some x =>
    match x.invalid r with
    | some reason => s.invalidSpan r k reason
    | none =>
      let old := s.span k
      let new := s.rated r.chain k (resistance x.drop.toNat x.current.toNat)
        { old with chain := some r.chain, round := some r.number }
      (s.setSpan k new).spanChanged k old new

/-! ### Leakage (R177) -/

/-- Do the conditions hold for the leakage of a complete full round (R177)? -/
def State.leakageAllowed (s : State) (r : Round) : Bool :=
  s.ls.topology == .single && 1 ≤ s.ls.n && (numbers s.ls.n).all (s.servedBy r.chain) &&
    (s.ls.mode == .openLine || (match (s.leOf (otherChain r.chain)).state with
      | .watching | .off | .failed => true
      | _ => false)) &&
    r.targets.all (fun t => t.mark != .skipped && t.cur != saturated) && r.i0 != overRange

/-- The chain's leakage is computed at the end of a full round (R177). -/
def State.computeLeakage (r : Round) (s : State) : State :=
  if !s.leakageAllowed r then s
  else
    let v := r.i0 * 250 - (r.targets.map (·.cur)).sum
    let s := { s with lm := { s.lm with
        leakage := s.lm.leakage.set r.chain (some { value := v, round := r.number, time := s.time }) } }
    if s.cs.settings.leakageThreshold < v then s.raiseAlert .leakage (.chain r.chain)
    else s.clearAlert .leakage (.chain r.chain)

/-! ### Modes (R160, R161) -/

def State.runningChains (s : State) : PerChain Bool := ⟨s.running .fwd, s.running .ret⟩

/-- The cycle timer as an entry now starts it. -/
def State.newCycle (s : State) : Option CycleTimer :=
  some { start := s.time, expiry := s.time + s.cs.settings.measureInterval * 1000 }

def PerChain.orBoth (x y : PerChain Bool) : PerChain Bool := ⟨x.fwd || y.fwd, x.ret || y.ret⟩

/-- LM enters a mode (R161). -/
def State.enterMode (m : MeasureMode) (s : State) : State :=
  let off : PerChain Bool := ⟨false, false⟩
  { s with lm :=
    match m with
    | .off => { s.lm with mode := m, fullReq := off, focusReq := off, cycle := none, focus := none }
    | .single => { s.lm with mode := m, fullReq := s.runningChains, focusReq := off, cycle := none, focus := none }
    | .cyclic =>
      { s.lm with
        mode := m, fullReq := PerChain.orBoth s.lm.fullReq s.runningChains, focusReq := off
        cycle := s.newCycle, focus := none }
    | .focused =>
      { s.lm with
        mode := m, fullReq := PerChain.orBoth s.lm.fullReq s.runningChains
        cycle := s.newCycle, focus := some (s.time + focusTime) } }

/-- After a round has ended: a pending mode is entered, and SINGLE ends when no full request remains (R164,
R168). -/
def State.afterRound (s : State) : State :=
  let s := match s.lm.pendingMode with
    | some m => { s with lm := { s.lm with pendingMode := none } }.enterMode m
    | none => s
  if s.lm.mode == .single && !s.lm.fullReq.fwd && !s.lm.fullReq.ret then s.enterMode .off else s

/-! ### Rounds (R164 to R168) -/

/-- The request that LM takes next (R164). -/
def State.nextRequest (s : State) : Option (Chain × RoundKind) :=
  let pick := fun (x : PerChain Bool) =>
    if x.fwd && x.ret then some (otherChain s.lm.lastChain)
    else if x.fwd then some Chain.fwd
    else if x.ret then some Chain.ret
    else none
  match pick s.lm.fullReq with
  | some d => some (d, .full)
  | none => (pick s.lm.focusReq).map fun d => (d, .focused)

/-- The positions that a round reads, in chain order (R165). -/
def State.targetsFor (s : State) (d : Chain) (k : RoundKind) : List Nat :=
  match k with
  | .full => s.range d
  | .focused =>
    let spans := s.selected d
    (chainOrder d).filter fun p =>
      spans.any (fun x => nearEnd d x == p || farEnd d x == p) && !s.isPort d p

/-- A round starts: steps 1 to 4 of R165. -/
def State.startRound (d : Chain) (k : RoundKind) (s : State) : State :=
  let number := wrap65535 s.lm.roundNo
  let v0 := s.codeOf (channelV d)
  let i0 := s.codeOf (channelI d)
  let spans := match k with
    | .full => s.spansOf d
    | .focused => s.selected d
  let targets := (s.targetsFor d k).map fun p =>
    ({ pos := p, mark := if s.activePost p && s.servedBy d p then .waiting else .skipped
       volt := 0, cur := 0, paired := none } : Target)
  let r : Round :=
    { chain := d, kind := k, number := number, paired := s.cs.settings.pairedSampling, v0 := v0, i0 := i0
      targets := targets, spans := spans, inFlight := none }
  let s := ((s.roundSample (channelV d)).roundSample (channelI d)).roundSample .supplyV
  { s with lm := { s.lm with roundNo := number, lastChain := d, round := some r } }

/-- LM takes a request: a full round starts; a focused round starts when its chain has a selected span, and
is discarded otherwise (R164, R167). -/
def State.takeRound (d : Chain) (k : RoundKind) (s : State) : State :=
  match k with
  | .full => ({ s with lm := { s.lm with fullReq := s.lm.fullReq.set d false } }).startRound d .full
  | .focused =>
    let s := { s with lm := { s.lm with focusReq := s.lm.focusReq.set d false } }
    if (s.selected d).isEmpty then s else s.startRound d .focused

/-- The targets with those marked SKIPPED that can no longer be read and stand before the first that can,
which is named (R166). -/
def skipUnreadable (ok : Nat → Bool) : List Target → List Target × Option Nat
  | [] => ([], none)
  | t :: ts =>
    if t.mark == .waiting && ok t.pos then (t :: ts, some t.pos)
    else
      let rest := skipUnreadable ok ts
      ((if t.mark == .waiting then { t with mark := .skipped } else t) :: rest.1, rest.2)

/-- LM places the LINE read for a target, with the paired sample when the round asks for it (R166). -/
def State.placeRead (r : Round) (p : Nat) (s : State) : State :=
  let code := s.codeOf (channelI r.chain)
  let r := { r with
    inFlight := some p
    targets := r.targets.map fun (t : Target) => if t.pos == p && r.paired then { t with paired := some code } else t }
  let s := if r.paired then s.roundSample (channelI r.chain) else s
  let s := { s with lm := { s.lm with round := some r } }
  s.modLe r.chain fun e => { e with measure := some { pos := p } }

/-- The last target of a round has been dealt with: what is uncomputed is INVALID, SKIPPED, and the round
ends complete (R166, R168). -/
def State.completeRound (r : Round) (s : State) : State :=
  let s := r.spans.foldl (fun t k => t.invalidSpan r k .skipped) s
  let s := if r.kind == .full then s.computeLeakage r else s
  ({ s with lm := { s.lm with round := none } }).afterRound

/-- LM looks on: it places the next read of the round in flight, ends the round, or takes the next request
(R164, R166, R168). The number bounds how many rounds one event can start. -/
def State.lmLook : Nat → State → State
  | 0, s => s
  | k + 1, s =>
    match s.lm.round with
    | some r =>
      if r.inFlight.isSome then s
      else
        let next := skipUnreadable (fun p => s.activePost p && s.servedBy r.chain p) r.targets
        let r := { r with targets := next.1 }
        match next.2 with
        | some p => if (s.leOf r.chain).measure.isSome then s else s.placeRead r p
        | none => (s.completeRound r).lmLook k
    | none =>
      match s.nextRequest with
      | some (d, kind) => (s.takeRound d kind).lmLook k
      | none => s

/-- More rounds than one event can start: each takes a request, and one mode entry sets two. -/
def lookBound : Nat := 16

/-- The round in flight is aborted (R169). -/
def State.abortRound (s : State) : State :=
  match s.lm.round with
  | none => s
  | some r =>
    let again := s.lm.mode != .off && s.running r.chain
    let s :=
      if !again then s
      else match r.kind with
        | .full => { s with lm := { s.lm with fullReq := s.lm.fullReq.set r.chain true } }
        | .focused => { s with lm := { s.lm with focusReq := s.lm.focusReq.set r.chain true } }
    ({ s with lm := { s.lm with round := none } }).afterRound

/-- LM's part of an event: an abort when LS has told it of a change, then its next step (R163, R164, R169). -/
def State.lmReact (s : State) : State :=
  let s := if s.ev.topo then { s.abortRound with ev := { s.ev with topo := false } } else s
  s.lmLook lookBound

/-! ### The end of a LINE read (R166) -/

/-- A clean LINE_VALUES answer: in the round in flight the target is READ and the span whose far end it is is computed
(R166). -/
def State.lineRead (d : Chain) (p volt cur : Nat) (s : State) : State :=
  match s.lm.round with
  | none => s
  | some r =>
    if r.chain != d || r.inFlight != some p then s
    else
      let now := r.spans.filter fun k => farEnd d k == p
      let r := { r with
        inFlight := none
        targets := r.targets.map fun (t : Target) => if t.pos == p then { t with mark := .read, volt := volt, cur := cur } else t
        spans := r.spans.filter fun k => farEnd d k != p }
      let s := { s with lm := { s.lm with round := some r } }
      now.foldl (fun t k => t.computeSpan r k) s

/-! ### Timers (R163) -/

/-- The cycle timer expires in CYCLIC or FOCUSED (R163). -/
def State.cycleExpires (s : State) : State :=
  match s.lm.cycle with
  | none => s
  | some c =>
    { s with lm := { s.lm with
        fullReq := PerChain.orBoth s.lm.fullReq s.runningChains
        cycle := some { start := c.expiry, expiry := c.expiry + s.cs.settings.measureInterval * 1000 } } }

/-- The focus timer expires in FOCUSED (R163). -/
def State.focusExpires (s : State) : State :=
  match s.lm.focus with
  | none => s
  | some t =>
    let want := fun d => s.running d && !(s.selected d).isEmpty
    { s with lm := { s.lm with
        focus := some (t + focusTime)
        focusReq := PerChain.orBoth s.lm.focusReq ⟨want .fwd, want .ret⟩ } }

/-- A changed measurement interval sets a running cycle timer anew (R163). -/
def State.intervalChanged (s : State) : State :=
  match s.lm.cycle with
  | none => s
  | some c =>
    { s with lm := { s.lm with cycle := some { c with expiry := c.start + s.cs.settings.measureInterval * 1000 } } }

/-- RESTART_LINE reaches LM: spans UNMEASURED, leakage absent, the round abandoned (R29, R170, R177). -/
def State.clearMeasurement (s : State) : State :=
  ({ s with lm := { s.lm with spans := Vector.replicate 17 {}, leakage := ⟨none, none⟩ } }).abortRound

end Sys2Proof.Machine
end

