-- ==== Sys2Proof/Machine/Links.lean ====
section
/-! DEFINITION. Link supervision: takes, link UP and DOWN, responses, windows and masks, transmission (chapters Control
Link Supervision and Failover, Link Messages and Reporting). -/

namespace Sys2Proof.Machine

/-! ### Settling the effects of an event -/

/-- After an event that may have freed the return chain's calls: a held-back rejoin starts (R25), and LM
hears of the topology (R169). -/
def State.settleCalls (s : State) : State :=
  let s := s.rejoinIfFreed
  (if s.ev.topo then s.lmReact else s).endEvent

/-- After an event on the line: the rejoin, LM, SP, in this order (log entry 7). -/
def State.settleLine (s : State) : State := (((s.rejoinIfFreed).lmReact).spSettle).endEvent

/-! ### Link DOWN (R128 to R131) -/

/-- Step 4 of a DOWN for one record of the lost master (R129, R130). -/
def State.orphanCall (num : Nat) (s : State) : State :=
  match s.callOf num with
  | none => s
  | some c =>
    match c.state with
    | .connected | .held =>
      (s.freeVoice num).enterWaiting num fun x => { x with flags := { x.flags with rescued := true } }
    | .alerting => s.endCall num .calloutAbandoned false
    | .clearing => (s.modCall num fun x => { x with owner := none }).queueChanged
    | _ => s

/-- Steps 1 and 2 of a DOWN: the LIF's own state (R128, R189, R190). -/
def Lif.goDown (l : Lif) : Lif :=
  { l with
    link := .down, deadline := none, tx := [], statusPending := false, statusDue := false, periodic := none }

/-- Step 6 of a DOWN: the work in flight is orphaned (R49, R137). -/
def State.orphanWork (m : Master) (s : State) : State :=
  let s := s.modLif m fun l => { l with access := l.access.map fun a => { a with orphaned := true } }
  { s with cs := { s.cs with
      requester := s.cs.requester.map fun x => if x.master == m then { x with orphaned := true } else x } }

/-- A link goes DOWN (R128). -/
def State.goDown (m : Master) (s : State) : State :=
  let s := s.modLif m Lif.goDown
  let owned := (s.cm.queue.filter fun c => c.owner == some m).map (·.number)
  let s := owned.foldl (fun t num => t.orphanCall num) s
  (s.refreshAllOffers).orphanWork m

/-! ### Link UP (R133) -/

/-- The alignment timer of a SEARCHING control link starts when it is stopped (R127, R133). -/
def State.startAlignTimer (m : Master) (s : State) : State :=
  match masterLink m with
  | none => s
  | some l =>
    s.modAlign l fun a => if a.state == .searching && a.timer.isNone then { a with timer := some 0 } else a

/-- The flags of a master that are clear and unmasked: set in an event on an UP link, one of them makes a STATUS due
(R190, R192). -/
def State.clearUnmasked (s : State) (m : Master) : BitVec 9 :=
  ~~~(s.lifOf m).flags &&& ~~~(s.cs.settings.eventMask.get m)

/-- A link becomes UP: steps 1 to 5 of R133. The flags that step 2 sets make a STATUS due beside the one of step 3, as
in every event on an UP link (R190). -/
def State.comeUp (m : Master) (s : State) : State :=
  let due := s.clearUnmasked m != 0
  let s := s.modLif m fun l =>
    { l with
      link := .up, deadline := some (s.time + s.cs.settings.keepAlive.get m), flags := BitVec.allOnes 9
      statusDue := l.statusDue || due, periodic := some (s.time + statusPeriod) }
  let s := s.startAlignTimer m
  (s.makeStatus m).refreshAllOffers

/-! ### Taking a request (R124, R185) -/

/-- May the LIF take a request now (R185)? -/
def Lif.canTake (l : Lif) : Bool := l.hasRoom && !l.statusPending

/-- The keep-alive part of a take (R124). -/
def State.take (m : Master) (s : State) : State :=
  let s := s.modLif m fun l => { l with lastTake := some s.time }
  if s.linkUp m then s.modLif m fun l => { l with deadline := some (s.time + s.cs.settings.keepAlive.get m) }
  else s.comeUp m

/-- A refusal without an owner (R186). -/
def State.refuse (m : Master) (tag : Byte) (r : Reason) (s : State) : State := s.respond m (.refused tag r none)

/-- A response DONE (R186). -/
def State.answerDone (m : Master) (tag : Byte) (x : Done) (s : State) : State := s.respond m (.done tag x)

/-! ### ALIVE and the counters -/

/-- ALIVE (R124). -/
def State.onAlive (m : Master) (tag : Byte) (body : List Byte) (t : State) : State :=
  if body.isEmpty then t.answerDone m tag .empty else t.refuse m tag .badValue

/-- READ_COUNTERS (R194). -/
def State.onReadCounters (m : Master) (tag : Byte) (body : List Byte) (t : State) : State :=
  if body.isEmpty then (t.answerDone m tag (.counters t.counters)).clearFlag m .counters
  else t.refuse m tag .badValue

/-- CLEAR_COUNTERS (R194). -/
def State.onClearCounters (m : Master) (tag : Byte) (body : List Byte) (t : State) : State :=
  if body.isEmpty then
    let u := (t.answerDone m tag (.counters t.counters)).zeroCounters
    if t.counters.anyAbove then u.setFlagAll .counters else u
  else t.refuse m tag .badValue

/-! ### Keep-alive windows (R125) -/

/-- A master's keep-alive window has changed (R125). -/
def State.windowChanged (m : Master) (s : State) : State :=
  if !s.linkUp m then s
  else
    match (s.lifOf m).lastTake with
    | none => s
    | some t =>
      let deadline := t + s.cs.settings.keepAlive.get m
      if deadline ≤ s.time then s.goDown m else s.modLif m fun l => { l with deadline := some deadline }

/-- An event mask has changed from `old`: a set flag whose mark was cleared makes a STATUS due (R192). -/
def State.maskChanged (m : Master) (old : BitVec 9) (s : State) : State :=
  let freed := old &&& ~~~(s.cs.settings.eventMask.get m) &&& (s.lifOf m).flags
  if freed != 0 && s.linkUp m then s.modLif m fun l => { l with statusDue := true } else s

/-! ### Frames (R126, R183) -/

/-- What a boundary without a good frame leaves in ALIGNED (R126, R183). -/
def Alignment.miss (a : Alignment) : Alignment :=
  let a := { a with misses := a.misses + 1, assembly := [], voice := List.replicate 64 silenceCode }
  if a.misses ≥ 4 then { a with state := .searching, timer := some 0, candidate := false } else a

/-! ### Transmission (R187) -/

/-- How many bytes or characters a message takes on the master's port (R183, R184). -/
def TxEntry.total (m : Master) (e : TxEntry) : Nat :=
  match m with
  | .mp => e.msg.size + 3
  | _ => e.msg.size

/-- Has the last byte of the head of the transmit queue been sent (R187)? -/
def State.headSent (s : State) (m : Master) : Bool :=
  match (s.lifOf m).tx with
  | [] => false
  | e :: _ => e.total m ≤ e.sent

/-- The head has been sent: it leaves the queue, and a pending STATUS takes the place (R187, R189). -/
def State.sendHead (m : Master) (s : State) : State :=
  let s := s.modLif m fun l => { l with tx := l.tx.drop 1 }
  if (s.lifOf m).statusPending then (s.modLif m fun l => { l with statusPending := false }).makeStatus m else s

end Sys2Proof.Machine
end

