-- ==== Sys2Proof/Machine/PostLine.lean ====
section
/-! DEFINITION. The events of the post line at LS and the line ends: words, losses, discovery, rejoin, judged
attempts, quarantine, over-current and restart (chapters The Post Line, Post Signalling). -/

namespace Sys2Proof.Machine

/-! ### Quarantine and return (R38, R39, R41, R42) -/

/-- What LS tells CM, SP and LM of a post that has become QUARANTINED, or enters the table so; a round in flight reads
it no more (R39, R166). -/
def State.quarantineEffects (p : Nat) (s : State) : State :=
  let s := (s.modPost p fun x => { x with cleanProbes := 0 }).postsChanged
  let s := (s.callDegraded p true).staleAll p
  match (s.post p).serving with
  | none => s
  | some d => ((s.withdrawSense d (· == p)).withdrawLine d (· == p)).skipTarget p

/-- A post becomes QUARANTINED (R39). -/
def State.quarantine (p : Nat) (s : State) : State :=
  (s.modPost p fun x => { x with state := .quarantined }).quarantineEffects p

/-- A QUARANTINED post becomes ACTIVE (R41, R42, R144). -/
def State.reactivate (p : Nat) (s : State) : State :=
  let s := (s.modPost p fun x => { x with state := .active, cleanProbes := 0 }).postsChanged
  ((s.callDegraded p false).duePairs p).settleProbes

/-- A failed attempt of a message to a position that line end d serves (R38, R39). -/
def State.scoreFailed (d : Chain) (p : Nat) (s : State) : State :=
  if !s.servedBy d p then s
  else
    let s := (s.modPost p fun x => { x with score := min 255 (x.score + 8) }).countRespFail d
    if (s.post p).state == .active && 128 ≤ (s.post p).score then s.quarantine p else s

/-- A clean attempt of a message to a position that line end d serves (R38). -/
def State.scoreClean (d : Chain) (p : Nat) (s : State) : State :=
  if s.servedBy d p then s.modPost p fun x => { x with score := x.score - 1 } else s

/-- A judged attempt changes the score (R38). -/
def State.scored (d : Chain) (p : Nat) (clean : Bool) (s : State) : State :=
  if clean then s.scoreClean d p else s.scoreFailed d p

/-! ### Posts found, moved and lost (R14, R19, R20, R27) -/

/-- CM, SP and the line end's queue give up one position (R19 step 3, R43): CM's notices, the stale marks and the withdrawal
with its COMPLETION NO_POST, in this order: DESIGN CHOICE, log entry 63. -/
def State.reportLost (d : Chain) (p : Nat) (s : State) : State := ((s.callLost p).staleAll p).withdrawFor d p

/-- A position still in the table as served by the other chain is given up there first (log entry 12); that chain keeps
no probe due without a QUARANTINED position (R40). -/
def State.giveUpElsewhere (d : Chain) (p : Nat) (s : State) : State :=
  if s.servedBy (otherChain d) p then ((s.makeLost p).reportLost (otherChain d) p).settleProbes else s

/-- An IDENT, or a CLAIMED for a position that no chain serves, serves position p on chain d (R14). -/
def State.servePost (d : Chain) (p : Nat) (serial : Serial) (kind : Byte) (s : State) : State :=
  if s.servedBy d p then s.modPost p fun x => { x with serial := some serial, kind := some kind }
  else
    let b0 := s.b
    let r0 := s.r
    let s := s.giveUpElsewhere d p
    let active := (s.post p).score < 128
    let s := s.modPost p fun x =>
      { x with
        serial := some serial, kind := some kind, state := if active then .active else .quarantined
        serving := some d, silence := 0, lastWord := none, firstNext := true }
    let s := (s.unusable p).computeIdentity p
    let s := ((s.boundaryChanged b0 r0).clearAlert .postSilent (.position p)).postsChanged
    let s := (s.callServed p serial).topologyTold
    if active then s.duePairs p else s.quarantineEffects p

/-- A CLAIMED answer moves position p from RETURN to FORWARD (R14, R27, R44). -/
def State.movePost (p : Nat) (serial : Serial) (kind : Byte) (s : State) : State :=
  let b0 := s.b
  let r0 := s.r
  let s := s.modPost p fun x =>
    { x with
      serial := some serial, kind := some kind, serving := some .fwd, silence := 0, cleanProbes := 0
      lastWord := none, firstNext := true }
  let s := ((s.unusable p).computeIdentity p).transferQueue p
  ((((s.boundaryChanged b0 r0).postsChanged).callMoved p).topologyTold).settleProbes

/-- The longest part of a chain's end that lies in a set of positions (R19). -/
def breakPart (missing : List Nat) : List Nat → List Nat
  | [] => []
  | p :: ps => if (p :: ps).all missing.contains then p :: ps else breakPart missing ps

/-- A break part is handled (R20). -/
def State.handleBreak (d : Chain) (part : List Nat) (s : State) : State :=
  match d, s.ls.mode, (s.leOf .ret).state with
  | .fwd, .loop, .watching =>
    if (s.leOf .ret).age < 8 then part.foldl (fun t p => t.raiseAlert .postSilent (.position p)) s
    else (s.setBreak).enterState .ret .feeding
  | _, _, _ => s.setBreak

/-- A rejoin in progress stops (R28). -/
def State.stopRejoin (s : State) : State := if s.rejoining then s.recomputeTopology false else s

/-- The positions of a set become LOST: steps 1 to 4 of R19. CM is told of them in the order of the set, that of the
chain (DESIGN CHOICE, log entry 50), and what each position loses, its withdrawal (R43) included, is done before the
next position's turn (DESIGN CHOICE, log entry 63). -/
def State.losePosts (d : Chain) (lost : List Nat) (s : State) : State :=
  let b0 := s.b
  let r0 := s.r
  let s := lost.foldl (fun t p => t.makeLost p) s
  let s := (s.boundaryChanged b0 r0).postsChanged
  (lost.foldl (fun t p => t.reportLost d p) s).topologyTold.settleProbes

/-- The missing set of a chain is taken as one event (R19, R20, R28). -/
def State.loss (d : Chain) (missing : List Nat) (s : State) : State :=
  if missing.isEmpty then s
  else
    let part := breakPart missing (s.served d)
    let isolated := missing.filter fun p => !part.contains p
    let s := (s.losePosts d missing).stopRejoin
    let s := isolated.foldl (fun t p => t.raiseAlert .postSilent (.position p)) s
    if part.isEmpty then s else s.handleBreak d part

/-! ### Words (R4, R5, R42) -/

/-- LS takes a valid word (R5, R42). -/
def State.takeWord (p : Nat) (w : StatusWord) (s : State) : State :=
  let old := s.post p
  let s := s.modPost p fun x => { x with silence := 0, lastWord := some w, firstNext := false, releaseMark := false }
  let s := if old.releaseMark && old.state == .quarantined && old.score < 128 then s.reactivate p else s
  let differs := match old.lastWord with
    | none => true
    | some v => v.hookOff != w.hookOff || v.request != w.request
  if old.firstNext || differs then s.callWord p w else s

/-- LS takes "no valid word" (R5). -/
def State.takeNoWord (p : Nat) (s : State) : State :=
  s.modPost p fun x => { x with silence := min 16 (x.silence + 1) }

/-- One served position of an upstream superframe (R4, R5). -/
def State.takeStatus (d : Chain) (frame : List Byte) (p : Nat) (s : State) : State :=
  match classify d (s.post p) (wordBytes p frame) with
  | .valid w => s.takeWord p w
  | .corrupt => (s.countStatusFail d).takeNoWord p
  | .absent | .misdirected | .stale => s.takeNoWord p

/-- One status position as an event of its own. A word that makes its post ACTIVE again ends as an event on the line:
SP then looks for a reading to place (R42, R146). -/
def State.takePosition (d : Chain) (frame : List Byte) (p : Nat) (s : State) : State :=
  let t := s.takeStatus d frame p
  if t.activePost p && !s.activePost p then t.settleLine else t.settleCalls

/-- The status words of an upstream superframe, each an event of its own (R4, R5), in rising position on both chains:
DESIGN CHOICE, log entry 49. -/
def State.takeWords (d : Chain) (frame : List Byte) (s : State) : State :=
  (positions.filter (s.servedBy d)).foldl (fun t p => t.takePosition d frame p) s

/-- The positions of a chain that the words have left silent for 16 superframes are lost, in one event on the line
(R19, R145, R146); without such a position there is no event. -/
def State.takeLoss (d : Chain) (s : State) : State :=
  let missing := (s.served d).filter fun p => (s.post p).silence == 16
  if missing.isEmpty then s else (s.loss d missing).settleLine

/-! ### Discovery and re-find (R13, R15 to R17, R24) -/

/-- The next position in chain order. -/
def nextIn (d : Chain) (p : Nat) : Nat :=
  match d with
  | .fwd => p + 1
  | .ret => p - 1

/-- Is a position within the reach of line end d (R2)? `discovering` is a discovery that follows FEEDING. -/
def State.inReach (s : State) (d : Chain) (discovering : Bool) (p : Nat) : Bool :=
  match d, s.ls.mode with
  | .fwd, .openLine => 1 ≤ p && p ≤ (if discovering then 16 else s.ls.n)
  | _, .loop => 1 ≤ p && p ≤ s.ls.n
  | .ret, .openLine => false

/-- In SPLIT with every position forward-served, LE-R goes to WATCHING (R22). -/
def State.settleSplit (s : State) : State :=
  if s.ls.topology == .split && s.b == s.ls.n then s.enterState .ret .watching else s

/-- LENGTH after a forward discovery in OPEN (R15, R23). -/
def State.checkLength (s : State) : State :=
  let want := s.cs.settings.expectedPosts
  if want != 0 && want != s.ls.n then s.raiseAlert .length .forwardPort else s.clearAlert .length .forwardPort

/-- LE-F's discovery run ends; `held` is the position at which it met the other chain (R15). -/
def State.forwardRunEnds (held : Option Nat) (s : State) : State :=
  let s := s.enterState .fwd .running
  match s.ls.mode with
  | .openLine =>
    (({ s with ls := { s.ls with n := (s.leOf .fwd).found } }).clearBreak).checkLength
  | .loop =>
    match (s.leOf .ret).state with
    | .off =>
      if s.b == s.ls.n then s.enterState .ret .watching else (s.setBreak).enterState .ret .feeding
    | .watching => if s.b < s.ls.n then (s.setBreak).enterState .ret .feeding else s.recomputeBreak
    | .running => if held == some (s.b + 1) then s.repaired else (s.recomputeBreak).settleSplit
    | _ => s.recomputeBreak

/-- LE-R's discovery run ends (R16). -/
def State.returnRunEnds (held : Option Nat) (s : State) : State :=
  if (s.leOf .ret).found == 0 && held.isSome then s.enterState .ret .watching
  else
    let found := (s.leOf .ret).found
    let s := (s.enterState .ret .running).settleSplit
    if 1 ≤ found && held == some s.b then s.repaired else s

/-- A discovery run after FEEDING ends (R15, R16). -/
def State.runEnds (d : Chain) (held : Option Nat) (s : State) : State :=
  let s := s.modLe d fun e => { e with discovery := none }
  match d with
  | .fwd => s.forwardRunEnds held
  | .ret => s.returnRunEnds held

/-- A discovery run starts at a position (R10, R13). -/
def State.startRun (d : Chain) (p : Nat) (s : State) : State :=
  (s.enterState d .discovering).modLe d fun e => { e with discovery := some { pos := p } }

/-- An attempt of the DISCOVER of a discovery run is judged (R13). -/
def State.judgeDiscovery (d : Chain) (w : Waiting) (resp : Option Resp) (s : State) : State :=
  match resp with
  | some (.ident serial kind) =>
    let s := (s.servePost d w.pos serial kind).modLe d fun e => { e with found := e.found + 1 }
    let next := nextIn d w.pos
    if s.inReach d true next then s.modLe d fun e => { e with discovery := some { pos := next } }
    else s.runEnds d none
  | some _ => s.runEnds d (some w.pos)
  | none =>
    if 2 ≤ w.attempts then s.runEnds d none
    else s.modLe d fun e => { e with discovery := some { pos := w.pos, attempts := w.attempts + 1 } }

/-- An LS message into the LS place (R33). -/
def State.setLs (d : Chain) (x : Option LsMsg) (s : State) : State := s.modLe d fun e => { e with lsMsg := x }

/-- LE-F's next CLAIM, once the LS place is free (R27, R33). -/
def State.claimOn (s : State) : State :=
  if s.rejoining && (s.leOf .fwd).lsMsg.isNone then s.placeClaim else s

/-- A CLAIMED answer (R14, R27, R28). -/
def State.claimed (p : Nat) (serial : Serial) (kind : Byte) (s : State) : State :=
  if s.servedBy .ret p then s.movePost p serial kind else s.servePost .fwd p serial kind

/-- The result of an LS message: the answer, or none after 3 failed attempts; its place is free already
(R13, R24, R27). -/
def State.lsResult (d : Chain) (kind : LsKind) (p : Nat) (resp : Option Resp) (s : State) : State :=
  match kind, resp with
  | .discover, some (.ident serial k) =>
    let s := s.servePost d p serial k
    let next := nextIn d p
    if s.running d && s.inReach d false next && !s.servedBy d next then
      s.setLs d (some { kind := .discover, pos := next })
    else s
  | .discover, some _ => if (if d == .fwd then p == s.b + 1 else p == s.b) then s.repaired else s
  | .discover, none => s
  | .claim, some (.claimed serial k) => s.claimed p serial k
  | .claim, _ => s.stopRejoin
  | .probe, some .heldElsewhere => s.repaired
  | .probe, some _ =>
    if s.inReach .fwd false (s.b + 1) then s.setLs .fwd (some { kind := .discover, pos := s.b + 1 }) else s
  | .probe, none => s.setPending false

/-- An attempt of an LS message is judged (R13, R24, R27, R28). A CLAIMED that comes after the rejoin has
stopped is still taken. -/
def State.judgeLs (d : Chain) (kind : LsKind) (p : Nat) (resp : Option Resp) (s : State) : State :=
  match (s.leOf d).lsMsg.filter (·.flying), resp with
  | some x, none =>
    if 2 ≤ x.attempts then ((s.setLs d none).lsResult d kind p none).claimOn
    else s.setLs d (some { x with attempts := x.attempts + 1, flying := false })
  | some _, some _ => ((s.setLs d none).lsResult d kind p resp).claimOn
  | none, some (.claimed serial k) => s.claimed p serial k
  | none, _ => s

/-! ### Signalling, access and reads (R32, R37, R41, R47) -/

/-- A FIFO after a failed attempt of the message under way: its count rises, and at the third it joins the
tail (R37). -/
def failedSignal (p : Nat) (q : List SigMsg) : List SigMsg :=
  match q.find? fun x => x.pos == p && x.flying with
  | none => q
  | some x =>
    if 2 ≤ x.attempts then q.filter (·.pos != p) ++ [{ x with attempts := 0, flying := false }]
    else q.map fun y => if y.pos == p then { y with attempts := y.attempts + 1, flying := false } else y

/-- An attempt of a signalling message is judged (R37). -/
def State.judgeSignal (d : Chain) (p : Nat) (msg : Signal) (clean : Bool) (s : State) : State :=
  if clean then
    (s.modLe d fun e => { e with signalling := e.signalling.filter fun x => !(x.pos == p && x.flying) }).callAck p msg
  else s.modLe d fun e => { e with signalling := failedSignal p e.signalling }

/-- An attempt of an access is judged (R47). -/
def State.judgeAccess (d : Chain) (m : Master) (order : Nat) (resp : Option Resp) (s : State) : State :=
  match (s.lifOf m).access.filter fun a => a.order == order && a.chain == d with
  | none => s
  | some a =>
    match resp with
    | some (.value _ v) => s.endAccess m (.value v)
    | some .ack => s.endAccess m .done
    | some _ => s.modLif m fun l => { l with access := some { a with fails := 0, clock := some (a.clock.getD 0) } }
    | none =>
      if 2 ≤ a.fails then s.endAccess m .timeout
      else s.modLif m fun l => { l with access := some { a with fails := a.fails + 1 } }

/-- A quarantine PROBE is judged (R41); the score has been changed already. The answer of a post that is ACTIVE again
by then leaves the clean-probe count alone: DESIGN CHOICE, log entry 51. -/
def State.judgeProbe (d : Chain) (p : Nat) (clean : Bool) (s : State) : State :=
  if !(s.servedBy d p && (s.post p).state == .quarantined) then s
  else if !clean then s.modPost p fun x => { x with cleanProbes := 0 }
  else if 31 ≤ (s.post p).cleanProbes then (s.modPost p fun x => { x with score := 0 }).reactivate p
  else s.modPost p fun x => { x with cleanProbes := x.cleanProbes + 1 }

/-- An attempt of the SENSE read is judged (R32, R147). -/
def State.judgeSense (d : Chain) (resp : Option Resp) (s : State) : State :=
  match (s.leOf d).sense.filter (·.flying), resp with
  | some _, some (.value _ v) => (s.modLe d fun e => { e with sense := none }).senseClean d v
  | some x, _ =>
    if 2 ≤ x.attempts then (s.modLe d fun e => { e with sense := none }).senseFailed d
    else s.modLe d fun e => { e with sense := some { x with attempts := x.attempts + 1, flying := false } }
  | none, _ => s

/-- An attempt of the LINE read is judged (R32, R166). -/
def State.judgeLine (d : Chain) (resp : Option Resp) (s : State) : State :=
  match (s.leOf d).measure.filter (·.flying), resp with
  | some x, some (.lineValues volt cur) => (s.modLe d fun e => { e with measure := none }).lineRead d x.pos volt cur
  | some x, _ =>
    if 2 ≤ x.attempts then (s.modLe d fun e => { e with measure := none }).lineUnread d
    else s.modLe d fun e => { e with measure := some { x with attempts := x.attempts + 1, flying := false } }
  | none, _ => s

/-- A clean answer with values of sensors 0 and 1 is kept, whether or not its read still waits (R159). -/
def State.storeAnswer (d : Chain) (m : Sent) (resp : Option Resp) (s : State) : State :=
  match m, resp with
  | .sense p sensor, some (.value _ v) => s.storeValue d p sensor v
  | .line p, some (.lineValues volt cur) => (s.storeValue d p 0 volt).storeValue d p 1 cur
  | _, _ => s

/-- The attempt of a superframe is judged: its values, the message's own rule, then the score (R32, R38, R159). That the
message's own rule comes before a quarantine by the score is a DESIGN CHOICE, log entry 52. -/
def State.judgeSent (d : Chain) (m : Sent) (resp : Option Resp) (s : State) : State :=
  let s := s.storeAnswer d m resp
  match m with
  | .idle => s
  | .discovery _ =>
    match (s.leOf d).discovery.filter (·.flying) with
    | some w => s.judgeDiscovery d w resp
    | none => s
  | .ls kind p => s.judgeLs d kind p resp
  | .signalling p msg => (s.judgeSignal d p msg resp.isSome).scored d p resp.isSome
  | .access m' p _ _ order => (s.judgeAccess d m' order resp).scored d p resp.isSome
  | .quarantineProbe p => (s.scored d p resp.isSome).judgeProbe d p resp.isSome
  | .sense p _ => (s.judgeSense d resp).scored d p resp.isSome
  | .line p => (s.judgeLine d resp).scored d p resp.isSome

/-- The PENDING clocks of a line end's accesses that ran there before this superframe rise by 1 (R47). The clock of an
access that a CLAIMED answer moves to LE-F does not rise in that very LE-F superframe: DESIGN CHOICE, log entry 66. -/
def State.advanceClocks (d : Chain) (ran : List (Master × Nat)) (s : State) : State :=
  ran.foldl
    (fun t x => t.modLif x.1 fun l =>
      { l with access := l.access.map fun a =>
          if a.order == x.2 && a.chain == d then { a with clock := a.clock.map (· + 1) } else a }) s

/-- The accesses of a line end whose PENDING clock runs. -/
def State.runningClocks (s : State) (d : Chain) : List (Master × Nat) :=
  ((s.accessesAt d).filter fun x => x.2.clock.isSome).map fun x => (x.1, x.2.order)

/-- The voice of an upstream superframe as VX takes it: that of a free slot is discarded (R121, R211). -/
def State.slotVoice (s : State) (d : Chain) (frame : List Byte) : List Byte :=
  heldVoice 6 (fun k => (s.slotOf d k).isSome) (upVoiceOf frame)

/-- The response of an upstream superframe, in one event (R32, R47). -/
def State.takeResponse (d : Chain) (m : Sent) (frame : List Byte) (ran : List (Master × Nat)) (s : State) : State :=
  let s := (s.judgeSent d m (cleanResp m (respPart frame))).advanceClocks d ran
  (s.modLe d fun e => { e with sent := none }).settleLine

/-- An upstream superframe at a line end that awaits it: its voice, its words, the loss they settle and its response,
each word, the loss and the response one event (R4, R5, R14, R19, R32, R47, R179, R195). The clocks that rise are those
that ran at this line end before the superframe: a clock that the answer of this superframe moves here does not rise in
it (R44, R47), DESIGN CHOICE, log entry 66. -/
def State.upstream (d : Chain) (m : Sent) (frame : List Byte) (s : State) : State :=
  let ran := s.runningClocks d
  let s := { s with vx := { s.vx with upVoice := s.vx.upVoice.set d (s.slotVoice d frame) } }
  ((s.takeWords d frame).takeLoss d).takeResponse d m frame ran

/-! ### Over-current and restart (R11, R29) -/

/-- The consequences of a failed line end for the other and for the break record (R11). The record of a LOOP whose
topology became DOWN meanwhile is set anew, with its time and BREAK alert: DESIGN CHOICE, log entry 38. -/
def State.afterFailure (d : Chain) (s : State) : State :=
  match s.ls.mode, d, (s.leOf .ret).state with
  | .openLine, _, _ => s.clearBreak
  | .loop, .fwd, .off | .loop, .fwd, .watching => (s.setBreak).enterState .ret .feeding
  | .loop, .fwd, .failed => s.clearBreak
  | .loop, .fwd, _ => s.setBreak
  | .loop, .ret, _ => s

/-- The over-current of a line end (R11). -/
def State.lineFails (d : Chain) (s : State) : State :=
  let lost := s.served d
  let s := (s.enterState d .failed)
  let s := if lost.isEmpty then s else s.losePosts d lost
  ((s.raiseAlert .feedFault (.lineEnd d)).afterFailure d)

/-- LS sets the working mode and n from the settings (R1). -/
def State.setWorkingMode (s : State) : State :=
  let x := s.cs.settings
  match x.lineMode, x.expectedPosts with
  | .loop, 0 => { s with ls := { s.ls with mode := .openLine, n := 0, loopUnusable := true } }
  | .loop, n => { s with ls := { s.ls with mode := .loop, n := n, loopUnusable := false } }
  | .openLine, _ => { s with ls := { s.ls with mode := .openLine, n := 0, loopUnusable := false } }

/-- Steps 4 and 5 of R29: the line is started. -/
def State.startLine (s : State) : State := (s.setWorkingMode).enterState .fwd .feeding

/-- A line end goes to OFF (R10 to R12, R29). -/
def State.goOff (d : Chain) (s : State) : State :=
  if (s.leOf d).state == .off then s else s.enterState d .off

/-- One position at RESTART_LINE (R29, step 2). -/
def State.restartPost (p : Nat) (s : State) : State :=
  match (s.post p).state with
  | .vacant => s
  | .lost => s.modPost p fun x => { x with serving := none, score := 0, cleanProbes := 0 }
  | _ => (((s.makeLost p).modPost p fun x => { x with score := 0 }).postsChanged).callLost p

/-- RESTART_LINE: steps 1 to 5 of R29; CM is told of the positions in rising order (log entry 50). -/
def State.restartLine (s : State) : State :=
  let s := (((s.goOff .fwd).goOff .ret).emptyQueue .fwd).emptyQueue .ret
  let s := (positions.foldl (fun t p => t.restartPost p) s).settleProbes
  let s := (s.clearBreak).setPending false
  let s := if s.ls.alerts.isEmpty then s else (s.setAlerts []).lineChanged
  let s := (s.clearMeasurement).clearAlertTable
  s.startLine

/-! ### Timers of the line ends (R10 to R12, R17) -/

/-- The settle timer of a FEEDING line end expires (R10). -/
def State.settleExpires (d : Chain) (s : State) : State :=
  match d with
  | .fwd => s.startRun .fwd 1
  | .ret =>
    if (numbers s.ls.n).all (s.servedBy .fwd) then s.enterState .ret .watching else s.startRun .ret s.ls.n

/-- The positions that a re-find run may start at, in the line end's chain order (R17). -/
def State.refindTargets (s : State) (d : Chain) : List Nat :=
  (chainOrder d).filter fun p =>
    s.inReach d false p && ((s.post p).state == .lost || (s.post p).state == .vacant) &&
      (match d with
       | .fwd => p < s.r
       | .ret => s.b < p)

/-- The re-find timer of a RUNNING line end expires (R17, R24). -/
def State.refindExpires (d : Chain) (s : State) : State :=
  let s := s.modLe d fun e => { e with refind := some (s.time + refindTime) }
  if (s.leOf d).lsMsg.isSome || s.rejoining then s
  else if d == .fwd && s.ls.topology == .split then s.setLs .fwd (some { kind := .probe, pos := s.b + 1 })
  else
    match s.refindTargets d with
    | [] => s
    | p :: _ => s.setLs d (some { kind := .discover, pos := p })

/-- LE-R's forward-seen age has reached 16: TAIL when every post still answers forward (R12). -/
def State.ageExpires (s : State) : State :=
  let s := s.modLe .ret fun e => { e with ageDue := false }
  if (numbers s.ls.n).all fun p => s.servedBy .fwd p && (s.post p).silence < 4 then
    s.raiseAlert .tail (.spans (s.ls.n + 1) (s.ls.n + 1))
  else s

end Sys2Proof.Machine
end

