-- ==== Sys2Proof/Machine/Voice.lean ====
section
/-! DEFINITION. Voice carried by the joins, the frames sent and MP's characters (R121, R183, R184, R208,
R210). -/

namespace Sys2Proof.Machine

/-- The samples of a channel's voice from the master: silence while the link is SEARCHING (R126). MP's are the last 8
that its handset gave, sent again when none came since: DESIGN CHOICE, log entry 67. -/
def State.voiceFrom (s : State) (m : Master) (ch : Nat) : List Byte :=
  match masterLink m with
  | none => s.mp.voiceIn
  | some l =>
    match (s.alignOf l).state with
    | .aligned => slice (8 * (ch - 1)) 8 (s.alignOf l).voice
    | .searching => silence8

/-- The channel joined to a slot, if the slot is held (R119). -/
def State.joinOf (s : State) (d : Chain) (slot : Nat) : Option (Master × Nat) :=
  (masters.flatMap fun m => (numbers (channelCount m)).map fun ch => (m, ch)).find? fun x =>
    match s.channelOf x.1 x.2 with
    | some j => j.chain == d && j.slot == slot
    | none => false

/-- The downstream voice of a chain, 48 bytes: a free slot carries silence (R121). -/
def State.downVoice (s : State) (d : Chain) : List Byte :=
  (numbers 6).flatMap fun k =>
    match s.joinOf d k with
    | some (m, ch) => s.voiceFrom m ch
    | none => silence8

/-- The samples of a held channel toward its master, silence for a free one (R121). -/
def State.voiceTo (s : State) (m : Master) (ch : Nat) : List Byte :=
  match s.channelOf m ch with
  | some j => slice (8 * (j.slot - 1)) 8 (s.vx.upVoice.get j.chain)
  | none => silence8

/-! ### Sections and frames (R183, R208) -/

/-- The messages of a transmit queue into a section: its bytes, the offset at which the first message that
begins in it starts, and the queue with what has been sent. `used` bytes of 60 are filled. -/
def fillSection : Nat → List TxEntry → List Byte × Option Nat × List TxEntry
  | _, [] => ([], none, [])
  | used, e :: es =>
    let room := 60 - used
    let bytes := (e.msg.bytes.drop e.sent).take room
    let rest := fillSection (used + bytes.length) es
    let here := if e.sent == 0 && bytes != [] then some used else none
    (bytes ++ rest.1, here.or rest.2.1, { e with sent := e.sent + bytes.length } :: rest.2.2)

/-- The link frame with a voice part and a message section (R208). -/
def linkFrame (voice section_ : List Byte) (offset : Option Nat) : List Byte :=
  withCheck ([byte 1, byte (offset.getD 255)] ++ voice ++ section_ ++ List.replicate (60 - section_.length) 0)

/-- A control link's frame of one millisecond goes out (R123, R183, R208). -/
def State.sendFrame (l : ControlLink) (s : State) : State :=
  let m := linkMaster l
  let x := fillSection 0 (s.lifOf m).tx
  let voice := (numbers 8).flatMap (s.voiceTo m)
  let s := s.modLif m fun y => { y with tx := x.2.2 }
  { s with pins := { s.pins with linkOut := s.pins.linkOut.set l (linkFrame voice x.1 x.2.1) } }

/-- The characters of an MP message: start mark, message, check (R184, R208). -/
def mpChars (msg : OutMsg) : List Byte := startMark :: withCheck msg.bytes

/-- Up to `room` characters of a transmit queue, with the queue as it then stands. -/
def fillChars : Nat → List TxEntry → List Byte × List TxEntry
  | _, [] => ([], [])
  | room, e :: es =>
    let bytes := ((mpChars e.msg).drop e.sent).take room
    let rest := fillChars (room - bytes.length) es
    (bytes ++ rest.1, { e with sent := e.sent + bytes.length } :: rest.2)

/-- MP's characters of one millisecond go out: 11.52 of them at 115 200 baud, carried in hundredths (R187,
R208, log entry 14). -/
def State.sendChars (s : State) : State :=
  let credit := s.mp.credit + 1152
  let x := fillChars (credit / 100) (s.lifOf .mp).tx
  let left := if x.1.length == credit / 100 then credit % 100 else 0
  let s := s.modLif .mp fun y => { y with tx := x.2 }
  { s with mp := { s.mp with credit := left }, pins := { s.pins with mpOut := x.1 } }

/-! ### The handset (R121, R208) -/

/-- The upstream voice of MP's channel waits for the handset's samples (R121). It takes the place of samples not sent
yet: DESIGN CHOICE, log entry 67. -/
def State.feedHandset (d : Chain) (s : State) : State :=
  match s.channelOf .mp 1 with
  | some j => if j.chain == d then { s with mp := { s.mp with voiceOut := s.voiceTo .mp 1 } } else s
  | none => s

/-- One sample is exchanged on the handset pins: joined to the channel's slot, or silenced both ways (R208). With no
sample left to send the pin gives silence: DESIGN CHOICE, log entry 67. -/
def State.handset (sample : Byte) (s : State) : State :=
  if (s.channelOf .mp 1).isSome then
    { s with
      mp := { s.mp with voiceIn := s.mp.voiceIn.drop 1 ++ [sample], voiceOut := s.mp.voiceOut.drop 1 }
      pins := { s.pins with audioOut := s.mp.voiceOut.headD silenceCode } }
  else
    { s with
      mp := { s.mp with voiceIn := s.mp.voiceIn.drop 1 ++ [silenceCode], voiceOut := [] }
      pins := { s.pins with audioOut := silenceCode } }

/-! ### The downstream superframe (R3, R34, R40, R210) -/

/-- A line end sends the downstream superframe of one millisecond. -/
def State.sendDown (d : Chain) (s : State) : State :=
  let s := s.settleProbes
  let x := s.choose d
  let bytes := downBytes d x.1 (s.downVoice d)
  let s := s.modLe d fun _ => { x.2.countSuperframe with sent := some x.1 }
  { s with pins := { s.pins with lineOut := s.pins.lineOut.set d bytes } }

end Sys2Proof.Machine
end

