-- ==== Sys2Proof/Machine/Device.lean ====
section
/-! DEFINITION. RESET, start-up and the end of a SAVE (chapter Configuration Store and Start-up). -/

namespace Sys2Proof.Machine

/-- The memory as a SAVE cut off after `k` bytes of its image leaves it (R206, R207). -/
def State.memoryCut (s : State) (k : Nat) : Memory :=
  if s.cs.stage == .writing then Memory.writeRun 0 (s.cs.writing.take k) s.cs.memory else s.cs.memory

/-- RESET (R197): every block takes its initial values. What lies outside the device stays: the serial
memory with what had been written, the converter's inputs and the commands that wait (log entry 6). -/
def execReset (written : Nat) (s : State) : Host.Outcome State Fault Refusal :=
  done { State.reset with
    cs := { State.reset.cs with memory := s.memoryCut written }
    pins := { State.reset.pins with converter := s.pins.converter, samples := s.pins.samples }
    pending := s.pending }

/-- STARTING_END (R197): after 5 ms in STARTING the device enters LOADING. -/
def execStartingEnd (s : State) : Host.Outcome State Fault Refusal :=
  done (if s.dev == .starting && startingTime ≤ s.time then { s with dev := .loading } else s)

/-- The bytes that the reading of the memory gave (R199). -/
def State.readMemory (reading : MemReading) (s : State) : State × Option (List Byte) :=
  match reading with
  | .noAnswer => (s, none)
  | .asHeld => (s, some (s.cs.memory.readRun 0 imageSize))
  | .other bytes =>
    let m := Memory.writeRun 0 bytes {}
    ({ s with cs := { s.cs with memory := m } }, some (m.readRun 0 imageSize))

/-- Steps 1 to 3 of R201: the working copy is installed. -/
def State.install (x : Loaded) (s : State) : State :=
  let s := { s with cs := { s.cs with
      settings := x.settings, directory := x.directory, version := x.version, source := x.source
      repairs := x.repairs } }
  let s := positions.foldl (fun t p => t.computeIdentity p) s
  let s := { s with sp := { s.sp with table := x.polls } }
  entryNumbers.foldl (fun t e => t.formPairs e) s

/-- Steps 4 to 8 of R201: windows and masks, RUNNING, the line, the start mode, the flags. -/
def State.enterRunning (s : State) : State :=
  let s := masters.foldl (fun t m => t.windowChanged m) s
  let s := ({ s with dev := .running }).startLine
  let s := s.enterMode s.cs.settings.startMode
  ((s.setFlagAll .settings).setFlagAll .directory).setFlagAll .store

/-- LOAD_END (R199 to R201). -/
def execLoadEnd (reading : MemReading) (s : State) : Host.Outcome State Fault Refusal :=
  done (if s.dev == .loading then
      let x := s.readMemory reading
      ((x.1.install (loadOutcome x.2)).enterRunning).settleLine
    else s)

/-- SAVE_WRITING_END (R206): the image stands in the memory and the stage becomes VERIFYING. -/
def execSaveWritingEnd (s : State) : Host.Outcome State Fault Refusal :=
  done (if s.cs.stage == .writing then
      { s with cs := { s.cs with
          stage := .verifying, memory := Memory.writeRun 0 s.cs.writing s.cs.memory } }
    else s)

/-- The end of a SAVE with its result: steps 1 to 5 of R206. -/
def State.endSave (result : SaveResult) (s : State) : State :=
  let requester := s.cs.requester
  let version := s.cs.writingVersion
  let s := { s with cs := { s.cs with
      stage := .idle, lastResult := result, lastEnd := some (s.time, version), requester := none
      writing := [], writingVersion := 0 } }
  let s := if result == .done then s else s.countSaveFail
  let s := match requester with
    | some x => if x.orphaned then s else s.notice x.master (.completion x.tag (.save result version))
    | none => s
  s.setFlagAll .store

/-- SAVE_END (R206): agreement and mismatch end VERIFYING, no answer ends either stage. -/
def execSaveEnd (outcome : SaveOutcome) (s : State) : Host.Outcome State Fault Refusal :=
  done (match s.cs.stage, outcome with
    | .idle, _ => s
    | .verifying, .agrees => s.endSave .done
    | .verifying, .differs => s.endSave .failedMismatch
    | _, .noAnswer k => ({ s with cs := { s.cs with memory := s.memoryCut k } }).endSave .failedNoAnswer
    | .writing, _ => s)

end Sys2Proof.Machine
end

