-- ==== Sys2Proof/Machine/CallCommands.lean ====
section
/-! DEFINITION. The call requests and the call timers (chapters The Call Queue, Call Handling Requests). -/

namespace Sys2Proof.Machine

/-! ### Reads -/

/-- A record as READ_QUEUE reports it (R77). -/
def State.callReport (s : State) (c : Call) : CallReport :=
  { number := c.number, cls := c.cls, pos := c.pos, state := c.state, arrival := c.arrival, owner := c.owner
    lastOwner := c.lastOwner, offer := c.offer, slot := c.slot, channel := c.channel, flags := c.flags
    condition := c.condition, snapshot := c.snapshot, identity := (s.post c.pos).identity }

/-- READ_QUEUE (R77). -/
def State.onReadQueue (m : Master) (tag : Byte) (body : List Byte) (t : State) : State :=
  match oneWithin 1 16 body with
  | none => t.refuse m tag .badValue
  | some first =>
    (t.answerDone m tag (.queuePage t.cm.queue.length t.cm.change ((page first t.cm.queue).map t.callReport))).clearFlag
      m .queue

/-- READ_ABANDONED (R97). -/
def State.onReadAbandoned (m : Master) (tag : Byte) (body : List Byte) (t : State) : State :=
  match oneWithin 1 8 body with
  | none => t.refuse m tag .badValue
  | some first =>
    (t.answerDone m tag (.abandonedPage t.cm.abandoned.length t.cm.overflow (page first t.cm.abandoned))).clearFlag
      m .abandoned

/-! ### ANSWER, HOLD, RETRIEVE, TRANSFER, CLEAR -/

/-- Is the call owned by another master than the requester (R99)? -/
def Call.ownedByOther (c : Call) (m : Master) : Bool := c.owner.any (· != m)

/-- Owned by another in a state in which ANSWER is refused ALREADY_ANSWERED (R100). -/
def Call.answeredByOther (c : Call) (m : Master) : Bool :=
  c.ownedByOther m && (c.state == .connected || c.state == .held || c.state == .clearing)

/-- The slot that a call at position p would take, with its chain: the lowest free one of the serving chain
(R120). -/
def State.slotAt (s : State) (p : Nat) : Option (Chain × Nat) :=
  (s.post p).serving.bind fun d => (s.freeSlot d).map fun k => (d, k)

/-- A WAITING or HELD record becomes CONNECTED on a slot and channel of its owner (R101, R106). -/
def State.connect (num : Nat) (m : Master) (d : Chain) (slot ch : Nat) (p : Nat) (s : State) : State :=
  let s := s.allocate num d slot m ch
  let s := s.modCall num fun c =>
    { c.enter .connected s.time with
      owner := some m, slot := some (d, slot), channel := some ch
      flags := { c.flags.leave with everConnected := true } }
  s.placeSignal p (.connect slot)

/-- An ANSWER that passes every check (R101). -/
def State.answerCall (c : Call) (m : Master) (tag : Byte) (d : Chain) (slot ch : Nat) (s : State) : State :=
  let s := s.connect c.number m d slot ch c.pos
  let s := s.answerDone m tag (.answered c.number d slot)
  (s.withdrawOffers c.number c.offer (.answered m) (some m)).queueChanged

/-- An ANSWER refused NO_SLOT (R102). -/
def State.answerNoSlot (c : Call) (m : Master) (tag : Byte) (s : State) : State :=
  let s := s.refuse m tag .noSlot
  match (s.post c.pos).serving with
  | some d => (s.updateTo c (.noSlot d) c.offer.get).queueChanged
  | none => s

/-- The handling of an ANSWER for a live record (R100 to R102). -/
def State.answerFor (c : Call) (m : Master) (tag : Byte) (ch : Nat) (s : State) : State :=
  if !s.eligible m c.cls then s.refuse m tag .notPermitted
  else if c.answeredByOther m then s.respond m (.refused tag .alreadyAnswered c.owner)
  else if c.state != .waiting then s.refuse m tag .wrongState
  else if !channelIn m ch then s.refuse m tag .badValue
  else if (s.channelOf m ch).isSome then s.refuse m tag .channelBusy
  else
    match s.slotAt c.pos with
    | none => s.answerNoSlot c m tag
    | some (d, slot) => s.answerCall c m tag d slot ch

/-- ANSWER (R100 to R102). -/
def State.onAnswer (m : Master) (tag : Byte) (body : List Byte) (t : State) : State :=
  match twoOperands body with
  | none => t.refuse m tag .badValue
  | some (num, ch) =>
    match t.callOf num with
    | none => t.refuse m tag .noSuchCall
    | some c => (t.answerFor c m tag ch).settleCalls

/-- A CONNECTED record becomes HELD (R104). -/
def State.holdCall (c : Call) (s : State) : State :=
  let s := s.freeVoice c.number
  let s := s.modCall c.number fun x => { x.enter .held s.time with slot := none, channel := none }
  (s.placeSignal c.pos (.tone .hold)).queueChanged

/-- HOLD (R104). The owner is checked before the state, of a CLEARING call too (R99, R111): DESIGN CHOICE, log entry
42. -/
def State.onHold (m : Master) (tag : Byte) (body : List Byte) (t : State) : State :=
  match oneOperand body with
  | none => t.refuse m tag .badValue
  | some num =>
    match t.callOf num with
    | none => t.refuse m tag .noSuchCall
    | some c =>
      if c.ownedByOther m then t.refuse m tag .notPermitted
      else if c.state != .connected then t.refuse m tag .wrongState
      else ((t.answerDone m tag .empty).holdCall c).settleCalls

/-- The handling of a RETRIEVE for a live record (R106), the owner checked first: DESIGN CHOICE, log entry 42. -/
def State.retrieveFor (c : Call) (m : Master) (tag : Byte) (ch : Nat) (s : State) : State :=
  if c.ownedByOther m then s.refuse m tag .notPermitted
  else if c.state != .held then s.refuse m tag .wrongState
  else if !channelIn m ch then s.refuse m tag .badValue
  else if (s.channelOf m ch).isSome then s.refuse m tag .channelBusy
  else
    match s.slotAt c.pos with
    | none => s.refuse m tag .noSlot
    | some (d, slot) => ((s.answerDone m tag (.slot d slot)).connect c.number m d slot ch c.pos).queueChanged

/-- RETRIEVE (R106). -/
def State.onRetrieve (m : Master) (tag : Byte) (body : List Byte) (t : State) : State :=
  match twoOperands body with
  | none => t.refuse m tag .badValue
  | some (num, ch) =>
    match t.callOf num with
    | none => t.refuse m tag .noSuchCall
    | some c => (t.retrieveFor c m tag ch).settleCalls

/-- A CONNECTED or HELD record is transferred (R108). -/
def State.transferCall (c : Call) (target : Master) (s : State) : State :=
  (s.freeVoice c.number).enterWaiting c.number fun x =>
    { x with pref := some (.target target), flags := { x.flags with transferred := true } }

/-- The handling of a TRANSFER for a live record (R107, R108), the owner checked first: DESIGN CHOICE, log entry
42. -/
def State.transferFor (c : Call) (m : Master) (tag : Byte) (target : Master) (s : State) : State :=
  if c.ownedByOther m then s.refuse m tag .notPermitted
  else if !(c.state == .connected || c.state == .held) then s.refuse m tag .wrongState
  else if target == m then s.refuse m tag .notPermitted
  else if !s.linkUp target then s.refuse m tag .linkDown
  else if !s.eligible target c.cls then s.refuse m tag .notPermitted
  else (s.answerDone m tag .empty).transferCall c target

/-- TRANSFER (R107, R108). -/
def State.onTransfer (m : Master) (tag : Byte) (body : List Byte) (t : State) : State :=
  match transferOperands body with
  | none => t.refuse m tag .badValue
  | some (num, target) =>
    match t.callOf num with
    | none => t.refuse m tag .noSuchCall
    | some c => (t.transferFor c m tag target).settleCalls

/-- The handling of a CLEAR for a live record (R109). -/
def State.clearFor (c : Call) (m : Master) (tag : Byte) (s : State) : State :=
  match c.state with
  | .connected | .held | .alerting =>
    if c.ownedByOther m then s.refuse m tag .notPermitted else (s.answerDone m tag .empty).enterClearing c.number
  | .waiting => if m == .mp then s.refuse m tag .notPermitted else (s.answerDone m tag .empty).enterClearing c.number
  | _ => s.refuse m tag .wrongState

/-- CLEAR (R109, R110). -/
def State.onClear (m : Master) (tag : Byte) (body : List Byte) (t : State) : State :=
  match oneOperand body with
  | none => t.refuse m tag .badValue
  | some num =>
    match t.callOf num with
    | none => t.refuse m tag .noSuchCall
    | some c => (t.clearFor c m tag).settleCalls

/-! ### CALLOUT -/

/-- The record of a CALLOUT (R113). -/
def State.calloutRecord (s : State) (num p : Nat) (m : Master) (d : Chain) (slot ch : Nat) : Call :=
  let off := (s.post p).lastWord.any (·.hookOff)
  { number := num, cls := .callout, pos := p, serial := (s.post p).serial.getD 0
    state := if off then .connected else .alerting
    arrival := s.time, timer := s.time, hookOff := off, offer := noOffer, owner := some m
    lastOwner := none, pref := none, slot := some (d, slot), channel := some ch, snapshot := s.snapshot p
    condition := s.conditionOf p
    flags := { degraded := (s.post p).state == .quarantined, everConnected := off }
    stage := none, toneTimer := none, reminderBase := none, resumed := false }

/-- A CALLOUT that passes every check (R113). -/
def State.placeCallout (p : Nat) (m : Master) (tag : Byte) (d : Chain) (slot ch : Nat) (s : State) : State :=
  let num := s.nextNumber
  let c := s.calloutRecord num p m d slot ch
  let s := { s with cm := { s.cm with lastNumber := num, queue := insertCall c s.cm.queue } }
  let s := s.allocate num d slot m ch
  let s := s.placeSignal p (if c.hookOff then .connect slot else .ring)
  (s.answerDone m tag (.answered num d slot)).queueChanged

/-- The handling of a CALLOUT (R112). -/
def State.calloutFor (m : Master) (tag : Byte) (p ch : Nat) (s : State) : State :=
  if !validPos p || !channelIn m ch then s.refuse m tag .badValue
  else
    match (s.post p).serving with
    | none => s.refuse m tag .noPost
    | some d =>
      if (s.callAt p).isSome || (s.markOf p).isSome then s.refuse m tag .postBusy
      else if (s.channelOf m ch).isSome then s.refuse m tag .channelBusy
      else
        match s.freeSlot d with
        | none => s.refuse m tag .noSlot
        | some slot => s.placeCallout p m tag d slot ch

/-- CALLOUT (R112, R113). -/
def State.onCallout (m : Master) (tag : Byte) (body : List Byte) (t : State) : State :=
  match twoOperands body with
  | none => t.refuse m tag .badValue
  | some (p, ch) => (t.calloutFor m tag p ch).settleCalls

/-! ### CLOSE and ACK_ABANDONED -/

/-- CLOSE (R92). -/
def State.onClose (m : Master) (tag : Byte) (body : List Byte) (t : State) : State :=
  if m == .mp then t.refuse m tag .notPermitted
  else
    match oneOperand body with
    | none => t.refuse m tag .badValue
    | some num =>
      match t.callOf num with
      | none => t.refuse m tag .noSuchCall
      | some c =>
        if c.state != .severed then t.refuse m tag .wrongState
        else ((t.answerDone m tag .empty).endCall num .closed false).settleCalls

/-- ACK_ABANDONED (R96). -/
def State.onAckAbandoned (m : Master) (tag : Byte) (body : List Byte) (t : State) : State :=
  if m == .mp then t.refuse m tag .notPermitted
  else
    match oneOperand body with
    | none => t.refuse m tag .badValue
    | some num =>
      if t.cm.abandoned.any (·.number == num) then
        let t := t.answerDone m tag .empty
        ({ t with cm := { t.cm with abandoned := t.cm.abandoned.filter (·.number != num) } }).setFlagAll .abandoned
      else t.refuse m tag .noSuchCall

/-! ### Call timers -/

/-- ESCALATION (R86). -/
def execEscalation (call : Nat) (s : State) : Host.Outcome State Fault Refusal :=
  done (match s.callOf call with
    | some c => if s.escalates c then (s.escalate call).settleCalls else s
    | none => s)

/-- Has a TEST record waited its time (R87)? -/
def State.testDue (s : State) (c : Call) : Bool :=
  c.state == .waiting && c.cls == .test && c.timer + testTime ≤ s.time

/-- TEST_EXPIRED (R87). -/
def execTestExpired (call : Nat) (s : State) : Host.Outcome State Fault Refusal :=
  done (match s.callOf call with
    | some c => if s.testDue c then (s.endCall call .testExpired false).settleCalls else s
    | none => s)

/-- Has the LAST_OWNER preference of a record reached its end time (R82)? -/
def State.preferenceDue (s : State) (c : Call) : Bool :=
  c.state == .waiting && c.pref.any fun x => match x with
    | .lastOwner _ t => t ≤ s.time
    | .target _ => false

/-- The preference of a record ends (R82). -/
def State.endPreference (num : Nat) (s : State) : State :=
  (((s.modCall num fun c => { c with pref := none }).reoffer false num)).queueChanged

/-- PREFERENCE_END (R82). -/
def execPreferenceEnd (call : Nat) (s : State) : Host.Outcome State Fault Refusal :=
  done (match s.callOf call with
    | some c => if s.preferenceDue c then s.endPreference call else s
    | none => s)

/-- Has a HELD record reached its reminder (R105)? -/
def State.reminderDue (s : State) (c : Call) : Bool :=
  c.state == .held && c.reminderBase.any fun b => b + s.cs.settings.holdReminder * 1000 ≤ s.time

/-- The reminder of a HELD record (R105). -/
def State.remind (num : Nat) (s : State) : State :=
  match s.callOf num with
  | none => s
  | some c =>
    let s := s.updateTo c .reminder fun m => c.owner == some m
    (s.modCall num fun x => { x with reminderBase := some s.time }).queueChanged

/-- HOLD_REMINDER (R105). -/
def execHoldReminder (call : Nat) (s : State) : Host.Outcome State Fault Refusal :=
  done (match s.callOf call with
    | some c => if s.reminderDue c then s.remind call else s
    | none => s)

/-- Has the cleared-tone timer of a record expired (R110)? -/
def State.toneDue (s : State) (c : Call) : Bool :=
  c.state == .clearing && c.stage == some .tone && c.toneTimer.any (· ≤ s.time)

/-- CLEARED_TONE_EXPIRY (R110). -/
def execClearedToneExpiry (call : Nat) (s : State) : Host.Outcome State Fault Refusal :=
  done (match s.callOf call with
    | some c => if s.toneDue c then s.releaseStage call c.pos else s
    | none => s)

/-- Has an ALERTING record reached its call-out limit (R115)? -/
def State.limitDue (s : State) (c : Call) : Bool :=
  c.state == .alerting && c.timer + s.cs.settings.calloutLimit * 1000 ≤ s.time

/-- CALLOUT_LIMIT_EXPIRY (R115). -/
def execCalloutLimitExpiry (call : Nat) (s : State) : Host.Outcome State Fault Refusal :=
  done (match s.callOf call with
    | some c => if s.limitDue c then (s.endCall call .noAnswer false).settleCalls else s
    | none => s)

end Sys2Proof.Machine
end

