-- ==== Sys2Proof/Machine/StoreCommands.lean ====
section
/-! DEFINITION. The requests of the configuration store: directory, settings, store record and SAVE (chapters
Post Directory and Location Naming, Configuration Store and Start-up). -/

namespace Sys2Proof.Machine

/-- Is a SAVE in flight (R205)? -/
def State.saving (s : State) : Bool := s.cs.stage != .idle

/-- READ_ENTRY (R56). -/
def State.onReadEntry (m : Master) (tag : Byte) (body : List Byte) (t : State) : State :=
  match oneWithin 1 16 body with
  | none => t.refuse m tag .badValue
  | some p =>
    (t.answerDone m tag (.entry p (t.entry p) t.cs.version (t.post p).identity (t.post p).serial)).clearFlag
      m .directory

/-- A directory change for position p: steps 1 to 4 of R58. -/
def State.changeEntry (m : Master) (tag : Byte) (p : Nat) (x : Option LocationRecord) (s : State) : State :=
  let v := wrap65535 s.cs.version
  let s := { s with cs := { s.cs with directory := put1 s.cs.directory p x, version := v } }
  let s := s.answerDone m tag (.version v)
  (((s.computeIdentity p).renewSnapshot p).setFlagAll .directory).endEvent

/-- WRITE_ENTRY (R54, R58). -/
def State.onWriteEntry (m : Master) (tag : Byte) (body : List Byte) (t : State) : State :=
  if m == .mp then t.refuse m tag .notPermitted
  else
    match entryOperands body with
    | none => t.refuse m tag .badValue
    | some (p, x) =>
      if t.saving then t.refuse m tag .busy
      else if !t.keepsOrder p x then t.refuse m tag .badValue
      else t.changeEntry m tag p (some x)

/-- ERASE_ENTRY (R55, R58). -/
def State.onEraseEntry (m : Master) (tag : Byte) (body : List Byte) (t : State) : State :=
  if m == .mp then t.refuse m tag .notPermitted
  else
    match oneWithin 1 16 body with
    | none => t.refuse m tag .badValue
    | some p => if t.saving then t.refuse m tag .busy else t.changeEntry m tag p none

/-- READ_SETTINGS (R204). -/
def State.onReadSettings (m : Master) (tag : Byte) (body : List Byte) (t : State) : State :=
  if body.isEmpty then
    (t.answerDone m tag (.settings t.cs.settings t.ls.mode t.ls.n)).clearFlag m .settings
  else t.refuse m tag .badValue

/-- The store record as READ_STORE reports it (R198, R204). -/
def State.storeReport (s : State) : StoreReport :=
  { source := s.cs.source, repairs := s.cs.repairs, stage := s.cs.stage, requester := s.cs.requester
    lastResult := s.cs.lastResult, lastEnd := s.cs.lastEnd, version := s.cs.version }

/-- READ_STORE (R204). -/
def State.onReadStore (m : Master) (tag : Byte) (body : List Byte) (t : State) : State :=
  if body.isEmpty then (t.answerDone m tag (.store t.storeReport)).clearFlag m .store
  else t.refuse m tag .badValue

/-- The numbers of the live records that meet a test, in queue order. -/
def State.callsThat (s : State) (test : Call → Bool) : List Nat := (s.cm.queue.filter test).map (·.number)

/-- The block that uses a setting applies its new value (R202, R203). The records that escalate, are reminded or end in
this event are taken in queue order: DESIGN CHOICE, log entry 54. -/
def State.applySetting (old : Settings) (n : SettingName) (m : Master) (s : State) : State :=
  match n with
  | .keepAlive => s.windowChanged m
  | .escalationTime => (s.callsThat s.escalates).foldl (fun t num => t.escalateIfDue num) s
  | .calloutLimit => (s.callsThat s.limitDue).foldl (fun t num => t.endCall num .noAnswer false) s
  | .holdReminder => (s.callsThat s.reminderDue).foldl (fun t num => t.remind num) s
  | .measureInterval =>
    let t := s.intervalChanged
    if t.lm.cycle.any (·.expiry ≤ t.time) then t.cycleExpires.lmReact else t
  | .offerFilter => s.refreshAllOffers
  | .eventMask => s.maskChanged m (old.eventMask.get m)
  | _ => s

/-- An accepted WRITE_SETTING; one that stores the value already held only answers and sets SETTINGS (R203). -/
def State.storeSetting (m : Master) (tag : Byte) (n : SettingName) (for_ : Option Master) (v : SettingValue)
    (s : State) : State :=
  let old := s.cs.settings
  let whose := for_.getD .clA
  let new := old.put n whose v
  let s := { s with cs := { s.cs with settings := new } }
  let s := s.answerDone m tag (.setting n for_ v)
  ((if new = old then s else s.applySetting old n whose).setFlagAll .settings).settleCalls

/-- WRITE_SETTING (R203). -/
def State.onWriteSetting (m : Master) (tag : Byte) (body : List Byte) (t : State) : State :=
  if m == .mp then t.refuse m tag .notPermitted
  else
    match settingOperands body with
    | none => t.refuse m tag .badValue
    | some (n, for_, v) => if t.saving then t.refuse m tag .busy else t.storeSetting m tag n for_ v

/-- The image of the working copy (R205). -/
def State.image (s : State) : List Byte := imageOf s.cs.settings s.cs.version s.cs.directory s.sp.table

/-- A SAVE begins (R205). -/
def State.beginSave (m : Master) (tag : Byte) (s : State) : State :=
  { s with cs := { s.cs with
      stage := .writing, requester := some { master := m, tag := tag, orphaned := false }
      writing := s.image, writingVersion := s.cs.version } }

/-- SAVE (R205). -/
def State.onSave (m : Master) (tag : Byte) (body : List Byte) (t : State) : State :=
  if m == .mp then t.refuse m tag .notPermitted
  else if !body.isEmpty then t.refuse m tag .badValue
  else if t.saving then t.refuse m tag .busy
  else (t.respond m (.accepted tag)).beginSave m tag

end Sys2Proof.Machine
end

