-- ==== Sys2Proof/Machine/MonitorCommands.lean ====
section
/-! DEFINITION. The requests and timers of the supervision poller and the line monitor (chapters Post
Supervision, Line Measurement and Fault Location). -/

namespace Sys2Proof.Machine

/-! ### The poll table and the alerts -/

/-- A pair as READ_POLL reports it (R143). -/
def State.pairReport (s : State) (x : Pair) : PairReport :=
  { pos := x.pos, due := x.due
    state := if !x.asserted then .clear
      else if (s.alertOf x.entry x.pos).isSome then .assertedListed else .assertedUnlisted }

/-- READ_POLL (R143). The pairs are reported in rising position, as R142 forms them: DESIGN CHOICE, log entry 55. -/
def State.onReadPoll (m : Master) (tag : Byte) (body : List Byte) (t : State) : State :=
  match oneWithin 0 31 body with
  | none => t.refuse m tag .badValue
  | some e =>
    t.answerDone m tag (.pollPage (t.pollEntry e) ((t.sp.pairs.filter (·.entry == e)).map t.pairReport))

/-- WRITE_POLL (R141, R142). -/
def State.onWritePoll (m : Master) (tag : Byte) (body : List Byte) (t : State) : State :=
  match pollOperands body with
  | none => t.refuse m tag .badValue
  | some (e, x) =>
    if t.saving then t.refuse m tag .busy
    else ((((t.putPoll e x).answerDone m tag (.poll x)).applyPoll e).spSettle).endEvent

/-- An alert as READ_ALERTS reports it (R155). -/
def State.alertEntry (s : State) (a : Alert) : AlertEntry := { alert := a, name := s.postName a.pos }

/-- READ_ALERTS (R155). -/
def State.onReadAlerts (m : Master) (tag : Byte) (body : List Byte) (t : State) : State :=
  match oneWithin 1 48 body with
  | none => t.refuse m tag .badValue
  | some first =>
    (t.answerDone m tag (.alertsPage t.sp.alerts.length t.sp.change t.sp.drops
      ((page first t.sp.alerts).map t.alertEntry))).clearFlag m .alerts

/-- Is a pair due (R144)? -/
def State.pairDue (s : State) (e p : Nat) : Bool := (s.pairOf e p).any (·.due ≤ s.time)

/-- POLL_PAIR_DUE (R145, R146): the pair is skipped, or SP looks for a reading to place. -/
def execPollPairDue (entry pos : Nat) (s : State) : Host.Outcome State Fault Refusal :=
  done (if s.pairDue entry pos then s.spSettle else s)

/-! ### Measurement -/

/-- MEASURE (R162). -/
def State.onMeasure (m : Master) (tag : Byte) (body : List Byte) (t : State) : State :=
  match (oneOperand body).bind measureModeOf with
  | none => t.refuse m tag .badValue
  | some mode =>
    if t.lm.round.isSome then
      let t := { t with lm := { t.lm with pendingMode := some mode } }
      t.answerDone m tag (.measure t.lm.mode t.lm.pendingMode)
    else
      let t := t.enterMode mode
      ((t.answerDone m tag (.measure t.lm.mode none)).lmReact).endEvent

/-- The break record as SUMMARY reports it, with the reduced names of the outer ends of its range (R180). -/
def State.breakReport (s : State) : Option (BreakRecord × Option (ReducedName × ReducedName)) :=
  s.ls.breakRec.map fun x => (x, s.outerEnds x.first x.last)

/-- Section SUMMARY (R180). -/
def State.summary (s : State) : LineSummary :=
  { mode := s.ls.mode, n := s.ls.n, loopUnusable := s.ls.loopUnusable, topology := s.ls.topology
    rejoinPending := s.ls.rejoinPending, b := s.b, r := s.r, states := ⟨s.le.fwd.state, s.le.ret.state⟩
    breakRec := s.breakReport, measureMode := s.lm.mode, pendingMode := s.lm.pendingMode
    round := s.lm.round.map fun r => (r.chain, r.kind, r.number)
    roundNo := s.lm.roundNo, samples := s.lm.samples, leakage := s.lm.leakage, alerts := s.ls.alerts.length }

/-- A span as section SPANS reports it: without a name beyond the line's last span (R181). -/
def State.spanReport (s : State) (k : Nat) : SpanReport :=
  { span := k, entry := s.span k
    name := s.outerEnds k k }

/-- The name of the place of a line alert, in reduced form (R62, R180, R181). -/
def State.placeName (s : State) : AlertPlace → PlaceName
  | .spans first last => .span (s.outerEnds first last)
  | .position p => .post (s.reducedPost p)
  | .lineEnd d => .port (s.portName d)
  | .forwardPort => .port (s.portName .fwd)
  | .chain _ => .chain

/-- Section READ_LINE asks for, from a first place (R180, R181). -/
def State.section_ (s : State) (k : SectionName) (first : Nat) : LineSection :=
  match k with
  | .summary => .summary s.summary
  | .spans => .spans ((page first (numbers 17)).map s.spanReport)
  | .alerts =>
    .alerts ((page first s.ls.alerts).map fun a =>
      { kind := a.kind, place := a.place, time := a.time, name := s.placeName a.place })
  | .values =>
    .values ((page first positions).map fun p =>
      { pos := p, volt := at1 s.lm.volts p none, cur := at1 s.lm.amps p none })

/-- READ_LINE (R180, R181). -/
def State.onReadLine (m : Master) (tag : Byte) (body : List Byte) (t : State) : State :=
  match lineOperands body with
  | none => t.refuse m tag .badValue
  | some (k, first) => (t.answerDone m tag (.line t.lm.change (t.section_ k first))).clearFlag m .line

/-- CYCLE_TIMER_EXPIRY (R163). -/
def execCycleTimerExpiry (s : State) : Host.Outcome State Fault Refusal :=
  done (if s.lm.cycle.any (·.expiry ≤ s.time) then ((s.cycleExpires).lmReact).endEvent else s)

/-- FOCUS_TIMER_EXPIRY (R163). -/
def execFocusTimerExpiry (s : State) : Host.Outcome State Fault Refusal :=
  done (if s.lm.focus.any (· ≤ s.time) then ((s.focusExpires).lmReact).endEvent else s)

end Sys2Proof.Machine
end

