-- ==== Sys2Proof/Machine/LineCommands.lean ====
section
/-! DEFINITION. The requests of the line supervisor, item access, and the events of the post line (chapters
The Post Line, Post Signalling; R195). -/

namespace Sys2Proof.Machine

/-! ### Requests -/

/-- A post table entry as READ_POSTS reports it (R195). -/
def State.postReport (s : State) (p : Nat) : PostReport :=
  let x := s.post p
  { pos := p, state := x.state, serving := x.serving, serial := x.serial, kind := x.kind, identity := x.identity
    name := if x.state == .vacant then none else some (s.postName p)
    score := x.score, cleanProbes := x.cleanProbes, silence := x.silence, releaseMark := x.releaseMark
    lastWord := x.lastWord, condition := s.conditionOf p }

/-- READ_POSTS (R195). -/
def State.onReadPosts (m : Master) (tag : Byte) (body : List Byte) (t : State) : State :=
  match oneWithin 1 16 body with
  | none => t.refuse m tag .badValue
  | some first =>
    (t.answerDone m tag (.posts t.ls.postsChange t.ls.mode t.ls.n t.b t.r
      ((page first positions).map t.postReport))).clearFlag m .posts

/-- The effect of RELEASE_POST on an entry (R42). -/
def Post.release (x : Post) : Post :=
  { x with score := 0, releaseMark := x.releaseMark || x.state == .quarantined }

/-- RELEASE_POST (R42). -/
def State.onReleasePost (m : Master) (tag : Byte) (body : List Byte) (t : State) : State :=
  if m == .mp then t.refuse m tag .notPermitted
  else
    match oneWithin 1 16 body with
    | none => t.refuse m tag .badValue
    | some p =>
      if (t.post p).state == .vacant then t.refuse m tag .noPost
      else (t.answerDone m tag .empty).modPost p Post.release

/-- RESTART_LINE (R29). -/
def State.onRestartLine (m : Master) (tag : Byte) (body : List Byte) (t : State) : State :=
  if m == .mp then t.refuse m tag .notPermitted
  else if !body.isEmpty then t.refuse m tag .badValue
  else ((t.answerDone m tag .empty).restartLine).settleLine

/-- REJOIN (R26). -/
def State.onRejoin (m : Master) (tag : Byte) (body : List Byte) (t : State) : State :=
  if m == .mp then t.refuse m tag .notPermitted
  else if !body.isEmpty then t.refuse m tag .badValue
  else if t.ls.topology != .split then t.refuse m tag .wrongState
  else ((t.answerDone m tag .empty).rejoinStart).settleLine

/-- An item access is placed with the line end that serves the position (R46). -/
def State.placeAccess (m : Master) (tag : Byte) (p item : Nat) (write : Option Nat) (d : Chain) (s : State) : State :=
  let a : Access :=
    { tag := tag, pos := p, item := item, write := write, chain := d, order := s.placed, clock := none
      fails := 0, orphaned := false }
  let s := (s.respond m (.accepted tag)).modLif m fun l => { l with access := some a }
  { s with placed := s.placed + 1 }

/-- The checks of R46 after the first two. -/
def State.accessFor (m : Master) (tag : Byte) (p item : Nat) (write : Option Nat) (s : State) : State :=
  if (s.lifOf m).access.isSome then s.refuse m tag .busy
  else
    match (s.post p).serving with
    | none => s.refuse m tag .noPost
    | some d => s.placeAccess m tag p item write d

/-- POST_READ (R46). -/
def State.onPostRead (m : Master) (tag : Byte) (body : List Byte) (t : State) : State :=
  match itemOperands body with
  | none => t.refuse m tag .badValue
  | some (p, item) => t.accessFor m tag p item none

/-- POST_WRITE (R46). -/
def State.onPostWrite (m : Master) (tag : Byte) (body : List Byte) (t : State) : State :=
  match itemWriteOperands body with
  | none => t.refuse m tag .badValue
  | some (p, item, v) =>
    if 24 ≤ item then t.refuse m tag .protectedItem else t.accessFor m tag p item (some v)

/-! ### Superframes -/

/-- DOWNSTREAM_SUPERFRAME (R3, R34, R40): one superframe of an active line end that awaits no upstream half. -/
def execDownstreamSuperframe (d : Chain) (s : State) : Host.Outcome State Fault Refusal :=
  done (if (s.leOf d).state.active && (s.leOf d).sent.isNone then s.sendDown d else s)

/-- UPSTREAM_SUPERFRAME (R4): the upstream half that an active line end awaits. -/
def execUpstreamSuperframe (d : Chain) (bytes : List Byte) (s : State) : Host.Outcome State Fault Refusal :=
  done (match (s.leOf d).sent with
    | some m => if (s.leOf d).state.active then (s.upstream d m bytes).feedHandset d else s
    | none => s)

/-- PROBE_COUNTER_WRAP (R40): the probe-due flag is set when the chain holds a QUARANTINED position. -/
def execProbeCounterWrap (d : Chain) (s : State) : Host.Outcome State Fault Refusal :=
  done (if (s.leOf d).probeWrapped then
      s.modLe d fun e =>
        { e with probeWrapped := false, probeDue := e.probeDue || !(s.quarantinedOf d).isEmpty }
    else s)

/-- PENDING_CLOCK_EXPIRY (R47): the access whose clock has reached 32 ends with TIMEOUT. -/
def execPendingClockExpiry (m : Master) (s : State) : Host.Outcome State Fault Refusal :=
  done (if (s.lifOf m).access.any fun a => a.clock.any (pendingTime ≤ ·) then s.endAccess m .timeout else s)

/-! ### Line ends -/

/-- OVER_CURRENT (R11): the run count of a feeding line end has reached 10. -/
def execOverCurrent (d : Chain) (s : State) : Host.Outcome State Fault Refusal :=
  done (if (s.leOf d).state.feedOn && 10 ≤ (s.leOf d).overRun then (s.lineFails d).settleLine else s)

/-- SETTLE_EXPIRY (R10). -/
def execSettleExpiry (d : Chain) (s : State) : Host.Outcome State Fault Refusal :=
  done (if (s.leOf d).state == .feeding && (s.leOf d).settle.any (· ≤ s.time) then
      (s.settleExpires d).settleLine
    else s)

/-- RETRY_EXPIRY (R11). -/
def execRetryExpiry (d : Chain) (s : State) : Host.Outcome State Fault Refusal :=
  done (if (s.leOf d).state == .failed && (s.leOf d).retry.any (· ≤ s.time) then
      (s.enterState d .feeding).settleLine
    else s)

/-- REFIND_EXPIRY (R17). -/
def execRefindExpiry (d : Chain) (s : State) : Host.Outcome State Fault Refusal :=
  done (if (s.leOf d).state == .running && (s.leOf d).refind.any (· ≤ s.time) then s.refindExpires d else s)

/-- FORWARD_SUPERFRAME_SEEN (R12): LE-R in WATCHING receives a forward superframe that passes its check. -/
def execForwardSuperframeSeen (bytes : List Byte) (s : State) : Host.Outcome State Fault Refusal :=
  done (if (s.leOf .ret).state == .watching && forwardPasses bytes then
      ((s.modLe .ret fun e => { e with age := 0, ageDue := false }).clearAlerts .tail fun _ => true).endEvent
    else s)

/-- FORWARD_SEEN_AGE_EXPIRY (R12): the forward-seen age has reached 16. -/
def execForwardSeenAgeExpiry (s : State) : Host.Outcome State Fault Refusal :=
  done (if (s.leOf .ret).state == .watching && (s.leOf .ret).ageDue then s.ageExpires.endEvent else s)

end Sys2Proof.Machine
end

