-- ==== Sys2Proof/Machine/Serve.lean ====
section
/-! DEFINITION. Requests at a link interface: how one that waits or arrives is taken and handed to its owner, and one
command for each kind of request (chapters Control Link Supervision and Failover, Link Messages and Reporting). -/

namespace Sys2Proof.Machine

/-! ### Taking and handling (R124, R182, R185, R197) -/

/-- The owner of a request handles it, by its kind; a kind that names no request is refused by the LIF itself (R182,
R209). Kind 0 does not come so far (`takeHead`, `arrive`). -/
def State.handle (m : Master) (x : Message) (s : State) : State :=
  match x.kind.toNat with
  | 1 => s.onAlive m x.tag x.body
  | 2 => s.onReadQueue m x.tag x.body
  | 3 => s.onReadAbandoned m x.tag x.body
  | 4 => s.onAnswer m x.tag x.body
  | 5 => s.onHold m x.tag x.body
  | 6 => s.onRetrieve m x.tag x.body
  | 7 => s.onTransfer m x.tag x.body
  | 8 => s.onClear m x.tag x.body
  | 9 => s.onCallout m x.tag x.body
  | 10 => s.onClose m x.tag x.body
  | 11 => s.onAckAbandoned m x.tag x.body
  | 12 => s.onReadEntry m x.tag x.body
  | 13 => s.onWriteEntry m x.tag x.body
  | 14 => s.onEraseEntry m x.tag x.body
  | 15 => s.onReadSettings m x.tag x.body
  | 16 => s.onReadStore m x.tag x.body
  | 17 => s.onWriteSetting m x.tag x.body
  | 18 => s.onSave m x.tag x.body
  | 19 => s.onReadPoll m x.tag x.body
  | 20 => s.onWritePoll m x.tag x.body
  | 21 => s.onReadAlerts m x.tag x.body
  | 22 => s.onMeasure m x.tag x.body
  | 23 => s.onReadLine m x.tag x.body
  | 24 => s.onReadPosts m x.tag x.body
  | 25 => s.onReleasePost m x.tag x.body
  | 26 => s.onRestartLine m x.tag x.body
  | 27 => s.onRejoin m x.tag x.body
  | 28 => s.onPostRead m x.tag x.body
  | 29 => s.onPostWrite m x.tag x.body
  | 30 => s.onReadCounters m x.tag x.body
  | 31 => s.onClearCounters m x.tag x.body
  | _ => s.refuse m x.tag .badValue

/-- A request is taken, and its owner handles it in the same event; before RUNNING it is refused NOT_READY (R124,
R197). -/
def State.serve (m : Master) (tag : Byte) (owner : State → State) (s : State) : State :=
  let s := s.take m
  if s.dev == .running then owner s else s.refuse m tag .notReady

def State.setRx (m : Master) (q : List Message) (s : State) : State := s.modLif m fun l => { l with rx := q }

/-- The request at the head of a receive queue leaves it and is taken (R185). No owner reads the queue, so the
requests behind it stand aside meanwhile. An entry of kind 0, which no run queues, is no message (R209) and only
leaves. -/
def State.takeHead (m : Master) (s : State) : State :=
  match (s.lifOf m).rx with
  | [] => s
  | x :: rest => if isFill x.kind then s.setRx m rest else ((s.setRx m []).serve m x.tag (·.handle m x)).setRx m rest

/-- The requests that wait are taken, oldest first, as long as the LIF may take one (R124, R185). -/
def State.takeWaiting (m : Master) : Nat → State → State
  | 0, s => s
  | k + 1, s => if (s.lifOf m).canTake && !(s.lifOf m).rx.isEmpty then (s.takeHead m).takeWaiting m k else s

/-- A request that cannot be taken now joins the receive queue, or is an overrun (R185). -/
def State.receive (m : Master) (msg : Message) (s : State) : State :=
  if (s.lifOf m).rx.length < rxPlaces then s.setRx m ((s.lifOf m).rx ++ [msg])
  else (s.countOverrun m).overrunRefusal m msg.tag

/-- A request assembled at its LIF: those that wait go first, then it is taken, or waits behind them (R124, R185). -/
def State.request (m : Master) (msg : Message) (owner : State → State) (s : State) : State :=
  let s := s.takeWaiting m rxPlaces
  if (s.lifOf m).canTake && (s.lifOf m).rx.isEmpty then s.serve m msg.tag owner else s.receive m msg

/-- A message assembled at a LIF, of any kind but 0, which is never a message (R182 to R185, R209). -/
def State.arrive (m : Master) (x : Message) (s : State) : State :=
  if isFill x.kind then s else s.request m x (·.handle m x)

/-! ### The request commands -/

/-- UNKNOWN_KIND (R182): a taken message of no request kind is refused BAD_VALUE by the LIF. Kind 0 is never a message
(R209), so nothing is taken. -/
def execUnknownKind (m : Master) (kind tag : Byte) (body : List Byte) (s : State) :
    Host.Outcome State Fault Refusal :=
  done (if isFill kind then s else s.request m { kind := kind, tag := tag, body := body } (·.refuse m tag .badValue))

/-- ALIVE (R124). -/
def execAlive (m : Master) (tag : Byte) (body : List Byte) (s : State) : Host.Outcome State Fault Refusal :=
  done (s.request m { kind := 1, tag := tag, body := body } (·.onAlive m tag body))

/-- READ_QUEUE (R77). -/
def execReadQueue (m : Master) (tag : Byte) (body : List Byte) (s : State) : Host.Outcome State Fault Refusal :=
  done (s.request m { kind := 2, tag := tag, body := body } (·.onReadQueue m tag body))

/-- READ_ABANDONED (R97). -/
def execReadAbandoned (m : Master) (tag : Byte) (body : List Byte) (s : State) : Host.Outcome State Fault Refusal :=
  done (s.request m { kind := 3, tag := tag, body := body } (·.onReadAbandoned m tag body))

/-- ANSWER (R100 to R102). -/
def execAnswer (m : Master) (tag : Byte) (body : List Byte) (s : State) : Host.Outcome State Fault Refusal :=
  done (s.request m { kind := 4, tag := tag, body := body } (·.onAnswer m tag body))

/-- HOLD (R104); which of R99 and R111 comes first is log entry 42. -/
def execHold (m : Master) (tag : Byte) (body : List Byte) (s : State) : Host.Outcome State Fault Refusal :=
  done (s.request m { kind := 5, tag := tag, body := body } (·.onHold m tag body))

/-- RETRIEVE (R106). -/
def execRetrieve (m : Master) (tag : Byte) (body : List Byte) (s : State) : Host.Outcome State Fault Refusal :=
  done (s.request m { kind := 6, tag := tag, body := body } (·.onRetrieve m tag body))

/-- TRANSFER (R107, R108). -/
def execTransfer (m : Master) (tag : Byte) (body : List Byte) (s : State) : Host.Outcome State Fault Refusal :=
  done (s.request m { kind := 7, tag := tag, body := body } (·.onTransfer m tag body))

/-- CLEAR (R109, R110). -/
def execClear (m : Master) (tag : Byte) (body : List Byte) (s : State) : Host.Outcome State Fault Refusal :=
  done (s.request m { kind := 8, tag := tag, body := body } (·.onClear m tag body))

/-- CALLOUT (R112, R113). -/
def execCallout (m : Master) (tag : Byte) (body : List Byte) (s : State) : Host.Outcome State Fault Refusal :=
  done (s.request m { kind := 9, tag := tag, body := body } (·.onCallout m tag body))

/-- CLOSE (R92). -/
def execClose (m : Master) (tag : Byte) (body : List Byte) (s : State) : Host.Outcome State Fault Refusal :=
  done (s.request m { kind := 10, tag := tag, body := body } (·.onClose m tag body))

/-- ACK_ABANDONED (R96). -/
def execAckAbandoned (m : Master) (tag : Byte) (body : List Byte) (s : State) : Host.Outcome State Fault Refusal :=
  done (s.request m { kind := 11, tag := tag, body := body } (·.onAckAbandoned m tag body))

/-- READ_ENTRY (R56). -/
def execReadEntry (m : Master) (tag : Byte) (body : List Byte) (s : State) : Host.Outcome State Fault Refusal :=
  done (s.request m { kind := 12, tag := tag, body := body } (·.onReadEntry m tag body))

/-- WRITE_ENTRY (R54, R58). -/
def execWriteEntry (m : Master) (tag : Byte) (body : List Byte) (s : State) : Host.Outcome State Fault Refusal :=
  done (s.request m { kind := 13, tag := tag, body := body } (·.onWriteEntry m tag body))

/-- ERASE_ENTRY (R55, R58). -/
def execEraseEntry (m : Master) (tag : Byte) (body : List Byte) (s : State) : Host.Outcome State Fault Refusal :=
  done (s.request m { kind := 14, tag := tag, body := body } (·.onEraseEntry m tag body))

/-- READ_SETTINGS (R204). -/
def execReadSettings (m : Master) (tag : Byte) (body : List Byte) (s : State) : Host.Outcome State Fault Refusal :=
  done (s.request m { kind := 15, tag := tag, body := body } (·.onReadSettings m tag body))

/-- READ_STORE (R204). -/
def execReadStore (m : Master) (tag : Byte) (body : List Byte) (s : State) : Host.Outcome State Fault Refusal :=
  done (s.request m { kind := 16, tag := tag, body := body } (·.onReadStore m tag body))

/-- WRITE_SETTING (R203). -/
def execWriteSetting (m : Master) (tag : Byte) (body : List Byte) (s : State) : Host.Outcome State Fault Refusal :=
  done (s.request m { kind := 17, tag := tag, body := body } (·.onWriteSetting m tag body))

/-- SAVE (R205). -/
def execSave (m : Master) (tag : Byte) (body : List Byte) (s : State) : Host.Outcome State Fault Refusal :=
  done (s.request m { kind := 18, tag := tag, body := body } (·.onSave m tag body))

/-- READ_POLL (R143). -/
def execReadPoll (m : Master) (tag : Byte) (body : List Byte) (s : State) : Host.Outcome State Fault Refusal :=
  done (s.request m { kind := 19, tag := tag, body := body } (·.onReadPoll m tag body))

/-- WRITE_POLL (R141, R142). -/
def execWritePoll (m : Master) (tag : Byte) (body : List Byte) (s : State) : Host.Outcome State Fault Refusal :=
  done (s.request m { kind := 20, tag := tag, body := body } (·.onWritePoll m tag body))

/-- READ_ALERTS (R155). -/
def execReadAlerts (m : Master) (tag : Byte) (body : List Byte) (s : State) : Host.Outcome State Fault Refusal :=
  done (s.request m { kind := 21, tag := tag, body := body } (·.onReadAlerts m tag body))

/-- MEASURE (R162). -/
def execMeasure (m : Master) (tag : Byte) (body : List Byte) (s : State) : Host.Outcome State Fault Refusal :=
  done (s.request m { kind := 22, tag := tag, body := body } (·.onMeasure m tag body))

/-- READ_LINE (R180, R181). -/
def execReadLine (m : Master) (tag : Byte) (body : List Byte) (s : State) : Host.Outcome State Fault Refusal :=
  done (s.request m { kind := 23, tag := tag, body := body } (·.onReadLine m tag body))

/-- READ_POSTS (R195). -/
def execReadPosts (m : Master) (tag : Byte) (body : List Byte) (s : State) : Host.Outcome State Fault Refusal :=
  done (s.request m { kind := 24, tag := tag, body := body } (·.onReadPosts m tag body))

/-- RELEASE_POST (R42). -/
def execReleasePost (m : Master) (tag : Byte) (body : List Byte) (s : State) : Host.Outcome State Fault Refusal :=
  done (s.request m { kind := 25, tag := tag, body := body } (·.onReleasePost m tag body))

/-- RESTART_LINE (R29). -/
def execRestartLine (m : Master) (tag : Byte) (body : List Byte) (s : State) : Host.Outcome State Fault Refusal :=
  done (s.request m { kind := 26, tag := tag, body := body } (·.onRestartLine m tag body))

/-- REJOIN (R26). -/
def execRejoin (m : Master) (tag : Byte) (body : List Byte) (s : State) : Host.Outcome State Fault Refusal :=
  done (s.request m { kind := 27, tag := tag, body := body } (·.onRejoin m tag body))

/-- POST_READ (R46). -/
def execPostRead (m : Master) (tag : Byte) (body : List Byte) (s : State) : Host.Outcome State Fault Refusal :=
  done (s.request m { kind := 28, tag := tag, body := body } (·.onPostRead m tag body))

/-- POST_WRITE (R46). -/
def execPostWrite (m : Master) (tag : Byte) (body : List Byte) (s : State) : Host.Outcome State Fault Refusal :=
  done (s.request m { kind := 29, tag := tag, body := body } (·.onPostWrite m tag body))

/-- READ_COUNTERS (R194). -/
def execReadCounters (m : Master) (tag : Byte) (body : List Byte) (s : State) : Host.Outcome State Fault Refusal :=
  done (s.request m { kind := 30, tag := tag, body := body } (·.onReadCounters m tag body))

/-- CLEAR_COUNTERS (R194). -/
def execClearCounters (m : Master) (tag : Byte) (body : List Byte) (s : State) : Host.Outcome State Fault Refusal :=
  done (s.request m { kind := 31, tag := tag, body := body } (·.onClearCounters m tag body))

end Sys2Proof.Machine
end

