-- ==== Sys2Proof/Machine/LinkCommands.lean ====
section
/-! DEFINITION. The commands of the link interfaces: reception, link timers, transmission and the handset (chapters
Control Link Supervision and Failover, Link Messages and Reporting). -/

namespace Sys2Proof.Machine

/-! ### Reception (R126, R183, R184, R208) -/

/-- `f` applied k times. -/
def repeated {α : Type} (f : α → α) : Nat → α → α
  | 0, x => x
  | k + 1, x => repeated f k (f x)

/-- Messages assembled and messages discarded reach the LIF (R183 to R185). The discards of one frame or stretch of
characters are counted before its requests are taken: DESIGN CHOICE, log entry 58. -/
def State.assembled (m : Master) (out : List Message) (bad : Nat) (s : State) : State :=
  out.foldl (fun t x => t.arrive m x) (repeated (fun t => t.countFrameFail m) bad s)

/-- The voice of a link frame as VX takes it: that of a free channel is discarded (R121). -/
def State.linkVoice (s : State) (l : ControlLink) (voice : List Byte) : List Byte :=
  heldVoice 8 (fun ch => (s.channelOf (linkMaster l) ch).isSome) voice

/-- A frame is taken: its message section and its voice (R126, R183). -/
def State.takeFrame (l : ControlLink) (f : List Byte) (s : State) : State :=
  let x := takeSection (s.alignOf l).assembly f
  let voice := s.linkVoice l (slice 2 64 f)
  let s := s.modAlign l fun a => { a with assembly := x.assembly, voice := voice, misses := 0 }
  s.assembled (linkMaster l) x.out x.bad

/-- A frame boundary in ALIGNED (R126). -/
def State.boundaryAligned (l : ControlLink) (frame : Option (List Byte)) (s : State) : State :=
  match frame with
  | none => s.modAlign l Alignment.miss
  | some f =>
    if framePasses f then s.takeFrame l f
    else (s.countFrameFail (linkMaster l)).modAlign l Alignment.miss

/-- A frame boundary in SEARCHING (R126). -/
def State.boundarySearching (l : ControlLink) (frame : Option (List Byte)) (s : State) : State :=
  match frame with
  | none => s.modAlign l fun a => { a with candidate := false }
  | some f =>
    if !framePasses f then s.modAlign l fun a => { a with candidate := false }
    else if (s.alignOf l).candidate then
      (s.modAlign l fun a => { a with state := .aligned, timer := none, candidate := false }).takeFrame l f
    else s.modAlign l fun a => { a with candidate := true }

/-- A frame boundary (R126). -/
def State.boundary (l : ControlLink) (frame : Option (List Byte)) (s : State) : State :=
  let s := s.modAlign l fun a => { a with boundaryTaken := true }
  match (s.alignOf l).state with
  | .aligned => s.boundaryAligned l frame
  | .searching => s.boundarySearching l frame

/-- Has more than 5 ms of silence passed within a message on MP's UART (R184)? -/
def State.gapDue (s : State) : Bool := s.mp.assembly.isSome && s.mp.heard + gapTime < s.time

/-- A message in assembly that such a gap breaks off is discarded and counted (R184). -/
def State.dropGap (s : State) : State :=
  if s.gapDue then ({ s with mp := { s.mp with assembly := none } }).countFrameFail .mp else s

/-- Characters received on MP's UART (R184). -/
def State.takeChars (chars : List UartChar) (s : State) : State :=
  let s := s.dropGap
  let x := chars.foldl feedChar { assembly := s.mp.assembly, bad := 0, out := [] }
  let heard := if chars.isEmpty then s.mp.heard else s.time
  ({ s with mp := { s.mp with assembly := x.assembly, heard := heard } }).assembled .mp x.out x.bad

/-! ### The commands -/

/-- LINK_FRAME_RECEIVED (R126, R183): one frame boundary of a control link; a boundary comes once in each
millisecond. -/
def execLinkFrameReceived (l : ControlLink) (frame : Option (List Byte)) (s : State) :
    Host.Outcome State Fault Refusal :=
  done (if (s.alignOf l).boundaryTaken then s else s.boundary l frame)

/-- MP_MESSAGE_RECEIVED (R184): characters on MP's UART. -/
def execMpMessageReceived (chars : List UartChar) (s : State) : Host.Outcome State Fault Refusal :=
  done (s.takeChars chars)

/-- MP_CHARACTER_GAP (R184): more than 5 ms have passed since the last character of a message. -/
def execMpCharacterGap (s : State) : Host.Outcome State Fault Refusal := done s.dropGap

/-- KEEP_ALIVE_EXPIRY (R125): part time has reached the deadline of an UP link. -/
def execKeepAliveExpiry (m : Master) (s : State) : Host.Outcome State Fault Refusal :=
  done (if s.linkUp m && (s.lifOf m).deadline.any (· ≤ s.time) then (s.goDown m).settleCalls else s)

/-- ALIGNMENT_TIMER_EXPIRY (R127): the timer stops at 50 ms, and an UP link goes DOWN. -/
def execAlignmentTimerExpiry (l : ControlLink) (s : State) : Host.Outcome State Fault Refusal :=
  done (if (s.alignOf l).timer.any (alignmentTime ≤ ·) then
      let s := s.modAlign l fun a => { a with timer := none }
      if s.linkUp (linkMaster l) then (s.goDown (linkMaster l)).settleCalls else s
    else s)

/-- MESSAGE_SENT (R187, R189): the last byte of the head has been sent. -/
def execMessageSent (m : Master) (s : State) : Host.Outcome State Fault Refusal :=
  done (if s.headSent m then s.sendHead m else s)

/-- PERIODIC_STATUS (R190). -/
def execPeriodicStatus (m : Master) (s : State) : Host.Outcome State Fault Refusal :=
  done (if s.linkUp m && (s.lifOf m).periodic.any (· ≤ s.time) then
      (s.makeStatus m).modLif m fun l => { l with periodic := some (s.time + statusPeriod) }
    else s)

/-- FLAG_DRIVEN_STATUS (R190): at a boundary, one STATUS for every flag that became due. -/
def execFlagDrivenStatus (m : Master) (s : State) : Host.Outcome State Fault Refusal :=
  done (if s.linkUp m && (s.lifOf m).statusDue then
      (s.modLif m fun l => { l with statusDue := false }).makeStatus m
    else s)

/-- HANDSET_AUDIO_SAMPLE (R208). -/
def execHandsetAudioSample (sample : Byte) (s : State) : Host.Outcome State Fault Refusal :=
  done (s.handset sample)

end Sys2Proof.Machine
end

