-- ==== Sys2Proof/Machine/Dispatch.lean ====
section
/-! DEFINITION. One arm for each command: the meaning it calls. -/

namespace Sys2Proof.Machine

def exec (i : Instr) (s : State) : Host.Outcome State Fault Refusal :=
  match i with
  | .reset written => Sys2Proof.Machine.execReset written s
  | .startingEnd => Sys2Proof.Machine.execStartingEnd s
  | .loadEnd reading => Sys2Proof.Machine.execLoadEnd reading s
  | .linkFrameReceived l frame => Sys2Proof.Machine.execLinkFrameReceived l frame s
  | .mpMessageReceived chars => Sys2Proof.Machine.execMpMessageReceived chars s
  | .mpCharacterGap => Sys2Proof.Machine.execMpCharacterGap s
  | .unknownKind m kind tag body => Sys2Proof.Machine.execUnknownKind m kind tag body s
  | .alive m tag body => Sys2Proof.Machine.execAlive m tag body s
  | .readQueue m tag body => Sys2Proof.Machine.execReadQueue m tag body s
  | .readAbandoned m tag body => Sys2Proof.Machine.execReadAbandoned m tag body s
  | .answer m tag body => Sys2Proof.Machine.execAnswer m tag body s
  | .hold m tag body => Sys2Proof.Machine.execHold m tag body s
  | .retrieve m tag body => Sys2Proof.Machine.execRetrieve m tag body s
  | .transfer m tag body => Sys2Proof.Machine.execTransfer m tag body s
  | .clear m tag body => Sys2Proof.Machine.execClear m tag body s
  | .callout m tag body => Sys2Proof.Machine.execCallout m tag body s
  | .close m tag body => Sys2Proof.Machine.execClose m tag body s
  | .ackAbandoned m tag body => Sys2Proof.Machine.execAckAbandoned m tag body s
  | .readEntry m tag body => Sys2Proof.Machine.execReadEntry m tag body s
  | .writeEntry m tag body => Sys2Proof.Machine.execWriteEntry m tag body s
  | .eraseEntry m tag body => Sys2Proof.Machine.execEraseEntry m tag body s
  | .readSettings m tag body => Sys2Proof.Machine.execReadSettings m tag body s
  | .readStore m tag body => Sys2Proof.Machine.execReadStore m tag body s
  | .writeSetting m tag body => Sys2Proof.Machine.execWriteSetting m tag body s
  | .save m tag body => Sys2Proof.Machine.execSave m tag body s
  | .saveWritingEnd => Sys2Proof.Machine.execSaveWritingEnd s
  | .saveEnd outcome => Sys2Proof.Machine.execSaveEnd outcome s
  | .readPoll m tag body => Sys2Proof.Machine.execReadPoll m tag body s
  | .writePoll m tag body => Sys2Proof.Machine.execWritePoll m tag body s
  | .readAlerts m tag body => Sys2Proof.Machine.execReadAlerts m tag body s
  | .measure m tag body => Sys2Proof.Machine.execMeasure m tag body s
  | .readLine m tag body => Sys2Proof.Machine.execReadLine m tag body s
  | .readPosts m tag body => Sys2Proof.Machine.execReadPosts m tag body s
  | .releasePost m tag body => Sys2Proof.Machine.execReleasePost m tag body s
  | .restartLine m tag body => Sys2Proof.Machine.execRestartLine m tag body s
  | .rejoin m tag body => Sys2Proof.Machine.execRejoin m tag body s
  | .postRead m tag body => Sys2Proof.Machine.execPostRead m tag body s
  | .postWrite m tag body => Sys2Proof.Machine.execPostWrite m tag body s
  | .readCounters m tag body => Sys2Proof.Machine.execReadCounters m tag body s
  | .clearCounters m tag body => Sys2Proof.Machine.execClearCounters m tag body s
  | .keepAliveExpiry m => Sys2Proof.Machine.execKeepAliveExpiry m s
  | .alignmentTimerExpiry l => Sys2Proof.Machine.execAlignmentTimerExpiry l s
  | .messageSent m => Sys2Proof.Machine.execMessageSent m s
  | .periodicStatus m => Sys2Proof.Machine.execPeriodicStatus m s
  | .flagDrivenStatus m => Sys2Proof.Machine.execFlagDrivenStatus m s
  | .downstreamSuperframe d => Sys2Proof.Machine.execDownstreamSuperframe d s
  | .upstreamSuperframe d bytes => Sys2Proof.Machine.execUpstreamSuperframe d bytes s
  | .overCurrent d => Sys2Proof.Machine.execOverCurrent d s
  | .settleExpiry d => Sys2Proof.Machine.execSettleExpiry d s
  | .retryExpiry d => Sys2Proof.Machine.execRetryExpiry d s
  | .refindExpiry d => Sys2Proof.Machine.execRefindExpiry d s
  | .forwardSuperframeSeen bytes => Sys2Proof.Machine.execForwardSuperframeSeen bytes s
  | .forwardSeenAgeExpiry => Sys2Proof.Machine.execForwardSeenAgeExpiry s
  | .probeCounterWrap d => Sys2Proof.Machine.execProbeCounterWrap d s
  | .pendingClockExpiry m => Sys2Proof.Machine.execPendingClockExpiry m s
  | .escalation call => Sys2Proof.Machine.execEscalation call s
  | .testExpired call => Sys2Proof.Machine.execTestExpired call s
  | .preferenceEnd call => Sys2Proof.Machine.execPreferenceEnd call s
  | .holdReminder call => Sys2Proof.Machine.execHoldReminder call s
  | .clearedToneExpiry call => Sys2Proof.Machine.execClearedToneExpiry call s
  | .calloutLimitExpiry call => Sys2Proof.Machine.execCalloutLimitExpiry call s
  | .pollPairDue entry pos => Sys2Proof.Machine.execPollPairDue entry pos s
  | .cycleTimerExpiry => Sys2Proof.Machine.execCycleTimerExpiry s
  | .focusTimerExpiry => Sys2Proof.Machine.execFocusTimerExpiry s
  | .handsetAudioSample sample => Sys2Proof.Machine.execHandsetAudioSample sample s

end Sys2Proof.Machine
end

