-- ==== Sys2Proof/Machine/Tick.lean ====
section
/-! DEFINITION. What the device does when no command waits: the event that is due now is put in the queue, and
with none due one millisecond of part time passes (R197; log entry 1). -/

namespace Sys2Proof.Machine

/-- A command when a condition holds. -/
def whenDue (c : Bool) (i : Instr) : Option Instr := if c then some i else none

/-- The first command of a list of due ones. -/
def firstDue (xs : List (Option Instr)) : Option Instr := xs.findSome? id

/-! ### What is due, block by block -/

/-- STARTING has lasted 5 ms (R197). -/
def State.deviceDue (s : State) : Option Instr :=
  whenDue (s.dev == .starting && startingTime ≤ s.time) .startingEnd

/-- The events of one master's link: deadline, head sent, periodic STATUS, a gap between MP's characters (R125, R184,
R187, R190). -/
def State.linkDue (s : State) (m : Master) : Option Instr :=
  firstDue
    [whenDue (s.linkUp m && (s.lifOf m).deadline.any (· ≤ s.time)) (.keepAliveExpiry m),
      whenDue (s.headSent m) (.messageSent m),
      whenDue (s.linkUp m && (s.lifOf m).periodic.any (· ≤ s.time)) (.periodicStatus m),
      whenDue ((s.lifOf m).access.any fun a => a.clock.any (pendingTime ≤ ·)) (.pendingClockExpiry m),
      whenDue (m == .mp && s.gapDue) .mpCharacterGap]

/-- The alignment timer of a control link stands at 50 ms (R127). -/
def State.alignDue (s : State) (l : ControlLink) : Option Instr :=
  whenDue ((s.alignOf l).timer.any (alignmentTime ≤ ·)) (.alignmentTimerExpiry l)

/-- The events of one line end: over-current, timers, forward-seen age, probe counter (R10 to R12, R17, R40). -/
def State.lineDue (s : State) (d : Chain) : Option Instr :=
  let e := s.leOf d
  firstDue
    [whenDue (e.state.feedOn && 10 ≤ e.overRun) (.overCurrent d),
      whenDue (e.state == .feeding && e.settle.any (· ≤ s.time)) (.settleExpiry d),
      whenDue (e.state == .failed && e.retry.any (· ≤ s.time)) (.retryExpiry d),
      whenDue (e.state == .running && e.refind.any (· ≤ s.time)) (.refindExpiry d),
      whenDue (d == .ret && e.state == .watching && e.ageDue) .forwardSeenAgeExpiry,
      whenDue e.probeWrapped (.probeCounterWrap d)]

/-- The timer of a call that has run out (R82, R86, R87, R105, R110, R115). -/
def State.callDue (s : State) (c : Call) : Option Instr :=
  firstDue
    [whenDue (s.escalates c) (.escalation c.number), whenDue (s.testDue c) (.testExpired c.number),
      whenDue (s.preferenceDue c) (.preferenceEnd c.number), whenDue (s.reminderDue c) (.holdReminder c.number),
      whenDue (s.toneDue c) (.clearedToneExpiry c.number), whenDue (s.limitDue c) (.calloutLimitExpiry c.number)]

/-- May SP place a reading with a chain now (R146)? -/
def State.canPlaceReading (s : State) (d : Chain) : Bool :=
  (s.sp.inflight.get d).isNone && (s.leOf d).sense.isNone && (s.nextPair d).isSome

/-- A due pair that SP skips, or whose chain can take a reading (R145, R146). -/
def State.pairDueNow (s : State) : Option Instr :=
  let ready := s.sp.pairs.find? fun x =>
    x.due ≤ s.time && (!s.activePost x.pos || chains.any fun d => s.servedBy d x.pos && s.canPlaceReading d)
  ready.map fun x => .pollPairDue x.entry x.pos

/-- The timers of LM (R163). -/
def State.monitorDue (s : State) : Option Instr :=
  firstDue
    [whenDue (s.lm.cycle.any (·.expiry ≤ s.time)) .cycleTimerExpiry,
      whenDue (s.lm.focus.any (· ≤ s.time)) .focusTimerExpiry]

/-- The master whose receive queue holds a request that its LIF may now take (R185). -/
def State.takable (s : State) : Option (Master × Message) :=
  masters.findSome? fun m =>
    if (s.lifOf m).canTake then (s.lifOf m).rx.head?.map fun x => (m, x) else none

/-- What did not come in the millisecond that ends: a link frame, an upstream superframe (R4, R126). -/
def State.missingNow (s : State) : Option Instr :=
  firstDue
    ([ControlLink.a, .b].map (fun l => whenDue (!(s.alignOf l).boundaryTaken) (.linkFrameReceived l none)) ++
      chains.map fun d => whenDue ((s.leOf d).state.active && (s.leOf d).sent.isSome) (.upstreamSuperframe d []))

/-- The event that is due now, the first in the model's order (log entry 1). -/
def State.dueNow (s : State) : Option Instr :=
  firstDue
    ([s.deviceDue] ++ masters.map s.linkDue ++ [s.alignDue .a, s.alignDue .b] ++ chains.map s.lineDue ++
      s.cm.queue.map s.callDue ++ [s.pairDueNow, s.monitorDue, s.missingNow])

/-! ### A millisecond passes -/

/-- The over-current sample of a feeding line end: a run of codes of 4000 or more is counted (R11). -/
def State.sampleCurrent (d : Chain) (s : State) : State :=
  if !(s.leOf d).state.feedOn then s
  else
    let high := 4000 ≤ s.codeOf (channelI d)
    (s.modLe d fun e => { e with overRun := if high then min 10 (e.overRun + 1) else 0 }).sampled (channelI d)

/-- The forward-seen age of a watching LE-R, which is marked as it reaches 16 (R12, log entry 5). -/
def LineEnd.older (e : LineEnd) : LineEnd :=
  if e.state != .watching || 16 ≤ e.age then e else { e with age := e.age + 1, ageDue := e.age == 15 }

/-- A running alignment timer counts a millisecond, and the next frame boundary is awaited (R126, R127). -/
def Alignment.older (a : Alignment) : Alignment :=
  { a with timer := a.timer.map fun v => min alignmentTime (v + 1), boundaryTaken := false }

/-- The commands of the boundary between two milliseconds: STATUS by event flags, and the superframe of each
active line end (R3, R190). -/
def State.boundaryCommands (s : State) : List Instr :=
  (masters.filter fun m => s.linkUp m && (s.lifOf m).statusDue).map .flagDrivenStatus ++
    (chains.filter fun d => (s.leOf d).state.active).map .downstreamSuperframe

/-- One millisecond of part time passes. -/
def State.tick (s : State) : State :=
  let s := { s with time := s.time + 1, align := ⟨s.align.a.older, s.align.b.older⟩ }
  let s := ((s.sampleCurrent .fwd).sampleCurrent .ret).modLe .ret LineEnd.older
  let s := ((s.sendFrame .a).sendFrame .b).sendChars
  { s with pending := s.boundaryCommands }

/-- What the device does with an empty queue: a request that waits and may be taken, the event that is due, or
a millisecond. -/
def State.idle (s : State) : State :=
  match s.takable with
  | some (m, _) => s.takeHead m
  | none =>
    match s.dueNow with
    | some i => { s with pending := [i] }
    | none => s.tick

end Sys2Proof.Machine
end

