-- ==== Sys2Proof/Machine/Requests.lean ====
section
/-! DEFINITION. The command that a message received in a receive queue is, by its kind (R182, R209). -/

namespace Sys2Proof.Machine

/-- The highest kind of a request; 1 to 31 are the requests, in the order of R209. -/
def lastRequestKind : Nat := 31

/-- The request command of a received message; a kind that names no request is UNKNOWN_KIND (R182,
R209), a command that does nothing for kind 0, which is never a message (R209). -/
def requestOf (m : Master) (x : Message) : Instr :=
  match x.kind.toNat with
  | 1 => .alive m x.tag x.body
  | 2 => .readQueue m x.tag x.body
  | 3 => .readAbandoned m x.tag x.body
  | 4 => .answer m x.tag x.body
  | 5 => .hold m x.tag x.body
  | 6 => .retrieve m x.tag x.body
  | 7 => .transfer m x.tag x.body
  | 8 => .clear m x.tag x.body
  | 9 => .callout m x.tag x.body
  | 10 => .close m x.tag x.body
  | 11 => .ackAbandoned m x.tag x.body
  | 12 => .readEntry m x.tag x.body
  | 13 => .writeEntry m x.tag x.body
  | 14 => .eraseEntry m x.tag x.body
  | 15 => .readSettings m x.tag x.body
  | 16 => .readStore m x.tag x.body
  | 17 => .writeSetting m x.tag x.body
  | 18 => .save m x.tag x.body
  | 19 => .readPoll m x.tag x.body
  | 20 => .writePoll m x.tag x.body
  | 21 => .readAlerts m x.tag x.body
  | 22 => .measure m x.tag x.body
  | 23 => .readLine m x.tag x.body
  | 24 => .readPosts m x.tag x.body
  | 25 => .releasePost m x.tag x.body
  | 26 => .restartLine m x.tag x.body
  | 27 => .rejoin m x.tag x.body
  | 28 => .postRead m x.tag x.body
  | 29 => .postWrite m x.tag x.body
  | 30 => .readCounters m x.tag x.body
  | 31 => .clearCounters m x.tag x.body
  | _ => .unknownKind m x.kind x.tag x.body

end Sys2Proof.Machine
end

