-- ==== Sys2Proof/WellFormed.lean ====
section
/-! DEFINITION. Which commands can occur: the checks an operand must pass because of the spec's formats. A
command outside them still has its meaning in `exec`; statements that need a check name it. -/

namespace Sys2Proof

/-- A message body has at most 236 bytes (R182). -/
def bodyFits (body : List Byte) : Bool := body.length ≤ 236

/-- The kinds that name a request are 1 to 31; kind 0 is never a message (R209). -/
def isRequestKind (kind : Byte) : Bool := 1 ≤ kind.toNat && kind.toNat ≤ 31

/-- A link frame has 128 bytes (R208). -/
def linkFrameFits (frame : Option (List Byte)) : Bool := frame.all (·.length == 128)

/-- An upstream superframe has 116 bytes, or none came back (R4, R210). -/
def upstreamFits (bytes : List Byte) : Bool := bytes.length == 116 || bytes.isEmpty

/-- A downstream superframe has 68 bytes (R210). -/
def downstreamFits (bytes : List Byte) : Bool := bytes.length == 68

/-- A call number is 1 to 255 (R78). -/
def callNumberFits (call : Nat) : Bool := 1 ≤ call && call ≤ 255

/-- A poll entry is 0 to 31 and a position 1 to 16 (R2, R140). -/
def pairFits (entry pos : Nat) : Bool := entry ≤ 31 && 1 ≤ pos && pos ≤ 16

/-- The serial memory has 8192 bytes, and a SAVE writes an image of 1026 (R198). -/
def readingFits : MemReading → Bool
  | .noAnswer | .asHeld => true
  | .other bytes => bytes.length ≤ 8192

/-- A SAVE that ends without an answer had written at most the image (R206). -/
def saveFits : SaveOutcome → Bool
  | .agrees | .differs => true
  | .noAnswer written => written ≤ 1026

/-- Can the command occur (R4, R78, R140, R182, R198, R206, R208 to R210)? -/
def wellFormed (i : Instr) : Bool :=
  match i with
  | .reset written => written ≤ 1026
  | .startingEnd | .mpMessageReceived _ | .mpCharacterGap | .saveWritingEnd | .keepAliveExpiry _
  | .alignmentTimerExpiry _ | .messageSent _ | .periodicStatus _ | .flagDrivenStatus _ | .downstreamSuperframe _
  | .overCurrent _ | .settleExpiry _ | .retryExpiry _ | .refindExpiry _ | .forwardSeenAgeExpiry
  | .probeCounterWrap _ | .pendingClockExpiry _ | .cycleTimerExpiry | .focusTimerExpiry
  | .handsetAudioSample _ => true
  | .loadEnd reading => readingFits reading
  | .saveEnd outcome => saveFits outcome
  | .linkFrameReceived _ frame => linkFrameFits frame
  | .unknownKind _ kind _ body => kind != 0 && !isRequestKind kind && bodyFits body
  | .alive _ _ body | .readQueue _ _ body | .readAbandoned _ _ body | .answer _ _ body | .hold _ _ body
  | .retrieve _ _ body | .transfer _ _ body | .clear _ _ body | .callout _ _ body | .close _ _ body
  | .ackAbandoned _ _ body | .readEntry _ _ body | .writeEntry _ _ body | .eraseEntry _ _ body
  | .readSettings _ _ body | .readStore _ _ body | .writeSetting _ _ body | .save _ _ body | .readPoll _ _ body
  | .writePoll _ _ body | .readAlerts _ _ body | .measure _ _ body | .readLine _ _ body | .readPosts _ _ body
  | .releasePost _ _ body | .restartLine _ _ body | .rejoin _ _ body | .postRead _ _ body | .postWrite _ _ body
  | .readCounters _ _ body | .clearCounters _ _ body => bodyFits body
  | .upstreamSuperframe _ bytes => upstreamFits bytes
  | .forwardSuperframeSeen bytes => downstreamFits bytes
  | .escalation call | .testExpired call | .preferenceEnd call | .holdReminder call | .clearedToneExpiry call
  | .calloutLimitExpiry call => callNumberFits call
  | .pollPairDue entry pos => pairFits entry pos

end Sys2Proof
end

