-- ==== Sys2Proof/Safety.lean ====
section
/-! DEFINITION. What counts as a safe state, and the terms in which claims speak: what a request needs to be
handled, what a response is, and what a command leaves alone. -/

namespace Sys2Proof.Machine

/-! ### Safe states -/

/-- Every error counter lies within 0 to 255 (R193). -/
def Counters.bounded (c : Counters) : Bool :=
  [c.statusFails.fwd, c.statusFails.ret, c.respFails.fwd, c.respFails.ret,
    c.frameFails.clA, c.frameFails.clB, c.frameFails.mp, c.overruns.clA, c.overruns.clB, c.overruns.mp,
    c.lost.clA, c.lost.clB, c.lost.mp, c.abandonedOverflows, c.alertDrops, c.saveFails].all (· ≤ 255)

/-- A DOWN link has no deadline, an empty transmit queue, no STATUS pending or due and no periodic timer (R123,
R128, R189, R190). -/
def Lif.quiet (l : Lif) : Bool :=
  l.link == .up ||
    (l.deadline.isNone && l.tx.isEmpty && !l.statusPending && !l.statusDue && l.periodic.isNone)

/-- Every DOWN link is quiet. -/
def State.linksQuiet (s : State) : Bool := masters.all fun m => (s.lifOf m).quiet

/-- No queue of a link interface exceeds its places (R185, R187). -/
def State.queuesFit (s : State) : Bool :=
  masters.all fun m => (s.lifOf m).rx.length ≤ rxPlaces && (s.lifOf m).tx.length ≤ txPlaces

/-- The marks of an event are clear between events (log entry 7). -/
def State.settled (s : State) : Bool := s.ev == {} && s.ls.alerts.all fun a => !a.fresh

/-- The call queue is sound: the numbers of live records and abandoned entries are distinct and 1 to 255, the
records stand at distinct positions 1 to 16, and the abandoned list has at most 8 entries (R69, R78, R94). -/
def State.callsSound (s : State) : Bool :=
  let numbers := s.cm.queue.map (·.number) ++ s.cm.abandoned.map (·.number)
  decide numbers.Nodup && numbers.all (fun k => 1 ≤ k && k ≤ 255) && decide (s.cm.queue.map (·.pos)).Nodup &&
    (s.cm.queue.map (·.pos)).all validPos && s.cm.abandoned.length ≤ 8

/-! ### Sound posts, voice paths and alerts -/

/-- The post table is sound: a chain serves a position exactly when its state is ACTIVE or QUARANTINED, silence,
score and clean probes lie within their ranges, and a usable latest line value came over the serving chain (R5, R18,
R38, R41, R159). -/
def State.postsSound (s : State) : Bool :=
  positions.all fun p =>
    let x := s.post p
    let fits := fun (v : Option LatestValue) => v.all fun y => !y.usable || x.serving == some y.chain
    (x.state == .active || x.state == .quarantined) == x.serving.isSome && x.silence ≤ 16 && x.score ≤ 255 &&
      x.cleanProbes < 32 && fits (at1 s.lm.volts p none) && fits (at1 s.lm.amps p none)

/-- Every position that the forward chain serves lies below every position that the return chain serves (R2, R18). -/
def State.chainsOrdered (s : State) : Bool :=
  positions.all fun p => positions.all fun q => !(s.servedBy .fwd p && s.servedBy .ret q) || p < q

/-- The states of a record that hold a voice path (R70, R119). -/
def CallState.voiced : CallState → Bool
  | .connected | .alerting => true
  | _ => false

/-- A record holds the slot and channel that it names, joined, on the chain that serves its post, while it is
CONNECTED or ALERTING, and names neither otherwise (R70, R119, R120, R122). -/
def State.voiceHeld (s : State) (c : Call) : Bool :=
  if c.state.voiced then
    match c.slot, c.owner, c.channel with
    | some (d, slot), some m, some ch =>
      s.servedBy d c.pos && s.slotOf d slot == some c.number &&
        s.channelOf m ch == some { call := c.number, chain := d, slot := slot }
    | _, _, _ => false
  else c.slot.isNone && c.channel.isNone

/-- Every voiced record holds what it names, and whatever a slot or a channel holds is a record that names it
(R119). -/
def State.voiceSound (s : State) : Bool :=
  s.cm.queue.all s.voiceHeld &&
    (chains.all fun d => (numbers 6).all fun k => (s.slotOf d k).all fun num =>
      s.cm.queue.any fun c => c.number == num && c.state.voiced && c.slot == some (d, k)) &&
    (masters.all fun m => (numbers (channelCount m)).all fun k => (s.channelOf m k).all fun j =>
      s.cm.queue.any fun c => c.number == j.call && c.state.voiced && c.owner == some m && c.channel == some k &&
        c.slot == some (j.chain, j.slot))

/-- A live record is SEVERED exactly when no chain serves the post of its position (R90). -/
def State.severedSound (s : State) : Bool :=
  s.cm.queue.all fun c => (c.state == .severed) == (s.post c.pos).serving.isNone

/-- The voice held of every chain and link is whole: 48 bytes of a superframe, 64 of a control link's frame, 8
samples of the handset (R121, R208, R211). -/
def State.voiceWhole (s : State) : Bool :=
  (chains.all fun d => (s.vx.upVoice.get d).length == 48) &&
    ([ControlLink.a, .b].all fun l => (s.alignOf l).voice.length == 64) && s.mp.voiceIn.length == 8

/-- Before RUNNING the line ends are OFF, the topology is DOWN, and there are neither calls nor alerts (R9, R22,
R69, R150, R197). -/
def State.asleep (s : State) : Bool :=
  s.le.fwd.state == .off && s.le.ret.state == .off && s.ls.topology == .down && s.cm.queue.isEmpty && s.sp.alerts.isEmpty

/-- Every WAITING record has the offer set and overflow flag that R81 gives now, and its preference, if any, names a
master of E; every other record has neither offer set nor preference; before RUNNING the device is asleep (R70, R72,
R81, R83). -/
def State.offersSound (s : State) : Bool :=
  (s.cm.queue.all fun c =>
    if c.state == .waiting then
      (c.offer, c.flags.overflow) == s.offersFor c && c.pref.all fun x => s.inE c.cls x.master
    else c.offer == noOffer && c.pref.isNone) &&
  (s.dev == .running || s.asleep)

/-- The alert table is sound: at most 48 alerts, one for each pair and that ASSERTED, and each position's condition
is the highest severity listed for it (R150 to R152, R156). -/
def State.alertsSound (s : State) : Bool :=
  s.sp.alerts.length ≤ 48 && decide (s.sp.alerts.map fun a => (a.entry, a.pos)).Nodup &&
    (s.sp.alerts.all fun a => (s.pairOf a.entry a.pos).any (·.asserted)) &&
    (positions.all fun p =>
      (s.sp.alerts.all fun a => a.pos != p || a.severity.code ≤ conditionCode (s.conditionOf p)) &&
        (s.conditionOf p).all fun x => s.sp.alerts.any fun a => a.pos == p && a.severity == x) &&
    (s.dev == .running || s.asleep)

/-! ### Working copies that requests can make -/

/-- Every setting lies within its range (R202). -/
def Settings.storable (x : Settings) : Bool :=
  [(SettingName.expectedPosts, x.expectedPosts), (.loopResistance, x.loopResistance), (.highEnter, x.highEnter),
    (.highLeave, x.highLeave), (.lowEnter, x.lowEnter), (.lowLeave, x.lowLeave),
    (.leakageThreshold, x.leakageThreshold), (.keepAlive, x.keepAlive.clA), (.keepAlive, x.keepAlive.clB),
    (.keepAlive, x.keepAlive.mp), (.escalationTime, x.escalationTime), (.calloutLimit, x.calloutLimit),
    (.holdReminder, x.holdReminder), (.measureInterval, x.measureInterval)].all
      (fun y => y.1.clampTo y.2 == y.2) && validText 1 12 x.siteName

/-- Every field of a poll entry lies within its range (R140). -/
def PollEntry.storable (x : PollEntry) : Bool :=
  x.target.all validPos && x.sensor ≤ 15 && x.mask ≤ 65535 && x.compare ≤ 65535 && x.hysteresis ≤ 65535 &&
    x.code ≤ 255 && 1 ≤ x.interval && x.interval ≤ 3600

/-- Every DEFINED entry is valid and any two stand in the order of R53. -/
def directorySound (directory : Vector (Option LocationRecord) 16) : Bool :=
  positions.all fun p => (at1 directory p none).all fun x =>
    x.valid && positions.all fun q => (at1 directory q none).all fun y => ordered p x q y

/-- The working copy is one that requests can make: settings, directory and poll table within their ranges, and a
version of 1 to 65535, or 0 with every entry UNUSED (R52, R53, R57, R140, R202). -/
def storable (settings : Settings) (version : Nat) (directory : Vector (Option LocationRecord) 16)
    (polls : Vector PollEntry 32) : Bool :=
  settings.storable && directorySound directory && polls.toList.all PollEntry.storable && version ≤ 65535 &&
    (version != 0 || directory.toList.all Option.isNone)

/-! ### Requests and responses -/

/-- Commands run one after the other, each on the state that the one before it leaves. -/
def Runs : List Instr → State → State → Prop
  | [], s, t => t = s
  | c :: cs, s, t => ∃ u, exec c s = .next u ∧ Runs cs u t

/-- The bytes of a message: kind, tag, the length of the whole, body (R182). -/
def Message.bytes (x : Message) : List Byte := [x.kind, x.tag] ++ toBytes 2 (4 + x.body.length) ++ x.body

/-- A message that a master can send: any kind but 0 (R209), and at most 240 bytes (R182). -/
def Message.sendable (x : Message) : Prop := x.kind ≠ 0 ∧ x.body.length ≤ 236

/-- Master `m` can have a request handled at once: the device is RUNNING, no request waits before it, the LIF may take
it (R185), and the take keeps a place for its response. -/
def State.ready (s : State) (m : Master) : Prop :=
  s.dev = .running ∧ (s.lifOf m).rx = [] ∧ (s.lifOf m).canTake = true ∧ ((s.take m).lifOf m).hasRoom = true

/-- The transmit queue after messages for an UP link: those that find a place join the tail in order (R187); a DOWN
link queues nothing (R123). -/
def Lif.queued (l : Lif) (msgs : List OutMsg) : List TxEntry :=
  if l.link = .up then l.tx ++ (msgs.take (txPlaces - l.tx.length)).map fun x => ⟨x, 0⟩ else l.tx

/-- How many of the messages find no place and are lost (R187); a DOWN link loses none (R123). -/
def Lif.lostOf (l : Lif) (msgs : List OutMsg) : Nat :=
  if l.link = .up then msgs.length - (txPlaces - l.tx.length) else 0

/-- A saturating counter after k advances (R193). -/
def advanced (v k : Nat) : Nat := if v < 255 then min 255 (v + k) else v

/-- The flags of a list as they stand in the STATUS body (R209). -/
def flagSet (fs : List EventFlag) : BitVec 9 := fs.foldr (fun f acc => f.single ||| acc) 0

/-- The link interface after messages were queued and flags set: a flag that was clear and is unmasked makes a
STATUS due on an UP link (R187, R190 to R193). -/
def Lif.told (l : Lif) (mask set : BitVec 9) (msgs : List OutMsg) : Lif :=
  { l with
    tx := l.queued msgs, lost := advanced l.lost (l.lostOf msgs), flags := l.flags ||| set
    statusDue := l.statusDue || (l.link == .up && (set &&& ~~~l.flags &&& ~~~mask) != 0) }

/-- The link interface after a STATUS was made: it takes the place of one that waits and is not in transmission, joins
the tail when a place is free, and is pending otherwise (R189). -/
def Lif.withStatus (l : Lif) (x : Status) : Lif :=
  let waits := fun (e : TxEntry) => e.msg.isStatus && e.sent == 0
  if l.tx.any waits then { l with tx := l.tx.filter (fun e => !waits e) ++ [⟨.status x, 0⟩] }
  else if l.tx.length < 32 then { l with tx := l.tx ++ [⟨.status x, 0⟩] }
  else { l with statusPending := true }

/-- The flags set for master `k` in an event that sets `fs` for all and sends `msgs`: QUEUE beside them for a master
that loses a notice, and COUNTERS for all when a counter of lost notices changes (R187, R193). -/
def toldFlags (fs : List EventFlag) (msgs : Master → List OutMsg) (s : State) (k : Master) : BitVec 9 :=
  flagSet (fs ++ (if (s.lifOf k).lostOf (msgs k) = 0 then [] else [.queue]) ++
    (if masters.any fun j => (s.lifOf j).lost < 255 && (s.lifOf j).lostOf (msgs j) != 0 then [.counters] else []))

/-- Between `s` and `t` the flags `fs` were set for all masters and `msgs` queued for each, and nothing else of a link
interface changed. -/
def Tells (fs : List EventFlag) (msgs : Master → List OutMsg) (s t : State) : Prop :=
  ∀ k, t.lifOf k = (s.lifOf k).told (t.cs.settings.eventMask.get k) (toldFlags fs msgs s k) (msgs k)

/-- No message at all. -/
def silent (_ : Master) : List OutMsg := []

/-- The messages for one master alone. -/
def onlyFor (m : Master) (msgs : List OutMsg) (k : Master) : List OutMsg := if k = m then msgs else []

/-- The messages for the masters of a set. -/
def forThose (set : Master → Bool) (msg : OutMsg) (k : Master) : List OutMsg := if set k then [msg] else []

/-- A flag in a list when a condition holds. -/
def flagIf (c : Prop) [Decidable c] (f : EventFlag) : List EventFlag := if c then [f] else []

/-- A flag stands for every master. -/
def State.flagged (s : State) (f : EventFlag) : Prop := ∀ m, s.flag m f = true

/-- The first message that `t` has queued for `m` beyond `s` is `msg`. -/
def Queues (m : Master) (msg : OutMsg) (s t : State) : Prop :=
  ∃ later, (t.lifOf m).tx = (s.lifOf m).tx ++ ⟨msg, 0⟩ :: later

/-- `t` is `s` with `msg` at the tail of the transmit queue of `m`, and nothing else. -/
def OnlyQueues (m : Master) (msg : OutMsg) (s t : State) : Prop :=
  t.lifOf m = { s.lifOf m with tx := (s.lifOf m).tx ++ [⟨msg, 0⟩] } ∧
    (∀ k, k ≠ m → t.lifOf k = s.lifOf k) ∧ { t with lif := s.lif } = s

/-- `t` is `s` with a response DONE to `m` at the tail of its transmit queue and flag `f` of `m` clear, and nothing
else (R191). -/
def OnlyReads (m : Master) (tag : Byte) (d : Done) (f : EventFlag) (s t : State) : Prop :=
  t.lifOf m = { s.lifOf m with
    tx := (s.lifOf m).tx ++ [⟨.done tag d, 0⟩], flags := (s.lifOf m).flags &&& ~~~f.single } ∧
    (∀ k, k ≠ m → t.lifOf k = s.lifOf k) ∧ { t with lif := s.lif } = s

/-- The request of `m` with a message is refused with a reason, and nothing else follows its take. -/
def Refuses (m : Master) (msg : Message) (r : Reason) (s : State) : Prop :=
  ∃ t, exec (requestOf m msg) s = .next t ∧ OnlyQueues m (.refused msg.tag r none) (s.take m) t

/-- The length of the body that a request requires; none where it depends on the setting named (R209). -/
def bodyLength (kind : Nat) : Option Nat :=
  match kind with
  | 1 | 15 | 16 | 18 | 26 | 27 | 30 | 31 => some 0
  | 4 | 6 | 7 | 9 | 23 | 28 => some 2
  | 13 => some 33
  | 17 => none
  | 20 => some 15
  | 29 => some 4
  | _ => some 1

/-- The requests that MP has no right to make (R196). -/
def deniedToMp : List Byte := [10, 11, 13, 14, 17, 18, 25, 26, 27]

/-! ### What an event at the calls leaves alone -/

/-- The configuration, the poller, time, the device state, alignment, MP's port, the commands that wait, the placing
order and the post table are as they were. -/
def StandsApart (s t : State) : Prop :=
  t.cs = s.cs ∧ t.sp = s.sp ∧ t.time = s.time ∧ t.dev = s.dev ∧ t.align = s.align ∧ t.mp = s.mp ∧
    t.pending = s.pending ∧ t.placed = s.placed ∧ t.ls.posts = s.ls.posts

/-- LS, LM and the pins are as they were, and so is each line end beyond its signalling FIFO. -/
def LineStands (s t : State) : Prop :=
  t.ls = s.ls ∧ t.lm = s.lm ∧ t.pins = s.pins ∧ t.ev = s.ev ∧
    ∀ d, { t.leOf d with signalling := (s.leOf d).signalling } = s.leOf d

/-- The event frees the return chain's last call while a rejoin is held back, which starts it (R25). -/
def rejoins (s t : State) : Bool := s.ls.topology == .split && s.ls.rejoinPending && t.returnCount == 0

/-- An event at the calls sets `fs` for all masters and sends `msgs`. The line stands, but for the signalling
messages, unless the event starts a rejoin that was held back; that sets LINE (R22, R25). -/
def CallEvent (fs : List EventFlag) (msgs : Master → List OutMsg) (s t : State) : Prop :=
  StandsApart s t ∧ (s.settled = true →
    Tells (fs ++ flagIf (rejoins s t = true) .line) msgs s t ∧
    (rejoins s t = false → LineStands s t) ∧
    (rejoins s t = true → t.ls.topology ≠ .split ∧ t.ls.rejoinPending = false))

/-- An event at the calls that cannot free the return chain. -/
def PlainCallEvent (fs : List EventFlag) (msgs : Master → List OutMsg) (s t : State) : Prop :=
  StandsApart s t ∧ Tells fs msgs s t ∧ LineStands s t

/-- The records other than `num`, the abandoned list, the allocator and the release marks are as they were, and
the queue change number has advanced once (R69). -/
def OtherCallsStand (num : Nat) (s t : State) : Prop :=
  (∀ k, k ≠ num → t.callOf k = s.callOf k) ∧ t.cm.abandoned = s.cm.abandoned ∧
    t.cm.lastNumber = s.cm.lastNumber ∧ t.cm.marks = s.cm.marks ∧ t.cm.overflow = s.cm.overflow ∧
    t.cm.change = wrap255 s.cm.change

/-- The signalling message `msg` for position `p` stands in the FIFO of the line end that serves `p`, as R36 places
it, and the other FIFO is as it was. -/
def Signals (p : Nat) (msg : Signal) (s t : State) : Prop :=
  ∀ d, (t.leOf d).signalling =
    if (s.post p).serving = some d then putSignal p msg (s.leOf d).signalling else (s.leOf d).signalling

/-- No signalling message has been placed. -/
def SignallingStands (s t : State) : Prop := ∀ d, (t.leOf d).signalling = (s.leOf d).signalling

/-- Every slot and channel is as it was (R119). -/
def VoiceStands (s t : State) : Prop := t.vx = s.vx

/-- The slots and channels of call `num` are free and all others as they were (R120, Free). -/
def VoiceFreed (num : Nat) (s t : State) : Prop :=
  (∀ d k, t.slotOf d k = (s.slotOf d k).filter (· != num)) ∧
    (∀ m k, t.channelOf m k = (s.channelOf m k).filter (·.call != num)) ∧ t.vx.upVoice = s.vx.upVoice

/-- Call `num` holds a slot and a channel, joined, and all other slots and channels are as they were (R120,
Allocate). -/
def VoiceJoined (num : Nat) (d : Chain) (slot : Nat) (m : Master) (ch : Nat) (s t : State) : Prop :=
  t.slotOf d slot = some num ∧ t.channelOf m ch = some { call := num, chain := d, slot := slot } ∧
    (∀ e k, (e, k) ≠ (d, slot) → t.slotOf e k = s.slotOf e k) ∧
    (∀ x k, (x, k) ≠ (m, ch) → t.channelOf x k = s.channelOf x k) ∧ t.vx.upVoice = s.vx.upVoice

/-- Record `c` has ended for a reason: its own part of steps 1 to 7 of R88. The release message and mark of R89 are
stated by the caller. -/
def CallEnds (c : Call) (reason : EndReason) (s t : State) : Prop :=
  t.cm.queue = s.cm.queue.filter (fun x => x.number != c.number) ∧ VoiceFreed c.number s t ∧
    t.cm.abandoned =
      (if leavesEntry c reason then
        (if s.cm.abandoned.length < 8 then s.cm.abandoned else s.cm.abandoned.drop 1) ++
          [{ number := c.number, pos := c.pos, name := c.snapshot, cls := c.cls, arrival := c.arrival
             ended := s.time, reason := reason }]
      else s.cm.abandoned) ∧
    t.cm.overflow = (if leavesEntry c reason ∧ 8 ≤ s.cm.abandoned.length then advanced s.cm.overflow 1
      else s.cm.overflow) ∧
    t.cm.lastNumber = s.cm.lastNumber ∧ t.cm.change = wrap255 s.cm.change

/-- The flags that the end of a record sets (R69, R94, R95, R193). -/
def endFlags (c : Call) (reason : EndReason) (s : State) : List EventFlag :=
  [.queue] ++ flagIf (leavesEntry c reason = true) .abandoned ++
    flagIf (leavesEntry c reason = true ∧ 8 ≤ s.cm.abandoned.length ∧ s.cm.overflow < 255) .counters

/-- The notices of the end of a record (R88). -/
def endMsgs (c : Call) (reason : EndReason) (s : State) (k : Master) : List OutMsg :=
  forThose c.offer.get (.callWithdrawn c.number .ended) k ++ [.callEnded c.number c.cls c.pos reason s.time]

/-- A record after its post became served by no chain: WAITING, CONNECTED and HELD become SEVERED without offers,
preference, slot, channel and owner, and the owner is the last owner; CLEARING and ALERTING end (R71, R72, R90). -/
def Call.afterLoss (now : Nat) (c : Call) : Option Call :=
  match c.state with
  | .waiting | .connected | .held => some { c with
      state := .severed, timer := now, offer := noOffer, pref := none, owner := none, slot := none, channel := none
      lastOwner := if c.state = .waiting then c.lastOwner else c.owner.or c.lastOwner
      stage := none, toneTimer := none, reminderBase := none, resumed := false
      flags := { c.flags with
        escalated := false, rescued := false, reconnected := false, overflow := false, transferred := false } }
  | .clearing | .alerting => none
  | .severed => some c

/-- A record at one of the positions that stop being served, and not SEVERED already (R90). -/
def Call.falls (lost : Nat → Prop) [DecidablePred lost] (c : Call) : Bool := decide (lost c.pos) && c.state != .severed

/-- The calls of the positions that stop being served have met their loss: each record in its place as R90 leaves it,
its slot and channel free, and no other record, slot or channel changed. -/
def CallsFall (lost : Nat → Prop) [DecidablePred lost] (s t : State) : Prop :=
  let falls := fun (num : Nat) => s.cm.queue.any fun c => c.number == num && c.falls lost
  t.cm = { s.cm with
    queue := s.cm.queue.filterMap fun c => if c.falls lost then c.afterLoss s.time else some c
    change := repeated wrap255 (s.cm.queue.countP (·.falls lost)) s.cm.change } ∧
    (∀ d k, t.slotOf d k = (s.slotOf d k).filter (!falls ·)) ∧
    (∀ m k, t.channelOf m k = (s.channelOf m k).filter (!falls ·.call)) ∧ t.vx.upVoice = s.vx.upVoice

/-- DISCONNECT is placed and the release mark stands for a served post of a record that ends (R89). -/
def Released (c : Call) (s t : State) : Prop :=
  Signals c.pos .disconnect s t ∧
    ∀ p, t.markOf p = if p = c.pos ∧ (s.post p).serving.isSome then some c.serial else s.markOf p

/-- CALL_UPDATE for a record (R85). -/
def updateMsg (s : State) (c : Call) (cause : UpdateCause) : OutMsg :=
  .callUpdate
    { number := c.number, cause := cause, state := c.state, cls := c.cls, flags := c.flags, condition := c.condition
      owner := c.owner, lastOwner := c.lastOwner, snapshot := c.snapshot, identity := (s.post c.pos).identity }

/-- The notices of a record whose post became served by no chain: CALL_WITHDRAWN to its offer set and CALL_UPDATE to
its owner when it becomes SEVERED, those of its end while CLEARING or ALERTING (R88, R90). -/
def lossMsgs (s : State) (c : Call) (k : Master) : List OutMsg :=
  match c.state with
  | .waiting | .connected | .held =>
    forThose c.offer.get (.callWithdrawn c.number .notOffered) k ++
      match c.afterLoss s.time with
      | some x => forThose (c.owner == some ·) (updateMsg s x .severed) k
      | none => []
  | .clearing => endMsgs c .clearedByControl s k
  | .alerting => endMsgs c .noAnswer s k
  | .severed => []

/-- The notices of one position that chain d loses: those of its record, then COMPLETION NO_POST of an access that
waited there (R19, R43, R48, R90). -/
def State.lostMsgs (s : State) (d : Chain) (p : Nat) (k : Master) : List OutMsg :=
  (match s.callAt p with
    | some c => lossMsgs s c k
    | none => []) ++
  match (s.lifOf k).access with
  | some a => if a.chain = d ∧ a.pos = p ∧ a.orphaned = false then
      [.completion a.tag (.access a.write.isSome a.pos a.item .noPost)] else []
  | none => []

/-- The owner of a record and the masters of its offer set (R85). -/
def Call.heard (c : Call) (k : Master) : Bool := c.owner == some k || c.offer.get k

/-- The record at p whose degraded flag is not `v` already: it takes `v` and is reported (R85). -/
def State.degrading (s : State) (p : Nat) (v : Bool) : Option Call := (s.callAt p).filter (·.flags.degraded != v)

/-- A record with its degraded flag. -/
def Call.degrade (v : Bool) (c : Call) : Call := { c with flags := { c.flags with degraded := v } }

/-- The call manager after a post became QUARANTINED or returned to ACTIVE (R39, R41, R69, R85). -/
def State.cmDegraded (s : State) (p : Nat) (v : Bool) : CallManager :=
  { s.cm with
    queue := s.cm.queue.map fun c => if c.pos = p then c.degrade v else c
    change := if (s.degrading p v).isSome then wrap255 s.cm.change else s.cm.change }

/-- The notices of a post that became QUARANTINED or returned to ACTIVE (R85). -/
def degradedMsgs (s : State) (p : Nat) (v : Bool) (k : Master) : List OutMsg :=
  match s.degrading p v with
  | some c => forThose c.heard (updateMsg s (c.degrade v) .degraded) k
  | none => []

/-- No call, slot, channel or waiting signalling message has changed. -/
def CallsStand (s t : State) : Prop := t.cm = s.cm ∧ VoiceStands s t ∧ SignallingStands s t

/-- The notices of an offer set that changes from `old` to that of `c` (R83). -/
def offerChange (s : State) (old : PerMaster Bool) (c : Call) (k : Master) : List OutMsg :=
  if c.offer.get k && !old.get k then [s.offerMsg c]
  else if old.get k && !c.offer.get k then [.callWithdrawn c.number .notOffered]
  else []

/-- The tone of a WAITING call whose offer set becomes empty or nonempty is placed (R84). -/
def ToneFollows (old : PerMaster Bool) (c : Call) (s t : State) : Prop :=
  if old.anySet = c.offer.anySet then SignallingStands s t
  else Signals c.pos (.tone (if c.offer.anySet then .registered else .noService)) s t

/-- A record as R81 leaves it: a WAITING one loses a preference for a master outside E and has its offer set and
overflow flag computed. -/
def State.reoffered (s : State) (c : Call) : Call :=
  if c.state = .waiting then
    let pref := c.pref.filter fun x => s.inE c.cls x.master
    let set := s.offersFor { c with pref := pref }
    { c with pref := pref, offer := set.1, flags := { c.flags with overflow := set.2 } }
  else c

/-- A signalling FIFO after the tones of the records whose offer sets become empty or nonempty (R84). -/
def State.retoned (s : State) (d : Chain) (calls : List Call) (q : List SigMsg) : List SigMsg :=
  calls.foldl (fun q c =>
    if s.servedBy d c.pos && c.offer.anySet != (s.reoffered c).offer.anySet then
      putSignal c.pos (toneFor (s.reoffered c).offer) q
    else q) q

/-! ### Directory, line and posts -/

/-- A directory change for position p to entry x: steps 1 to 4 of R58, the live record at p having its snapshot
renewed (R65) with CALL_UPDATE cause RENAMED; nothing else changes. -/
def EntryChanges (m : Master) (tag : Byte) (p : Nat) (x : Option LocationRecord) (s t : State) : Prop :=
  let v := wrap65535 s.cs.version
  let id := identityFor x (s.post p).serial
  let renamed := fun (c : Call) =>
    { c with snapshot := { version := v, record := x }, flags := { c.flags with renamed := true } }
  t.cs = { s.cs with directory := put1 s.cs.directory p x, version := v } ∧
    t.cm = { s.cm with
      queue := s.cm.queue.map (fun c => if c.pos = p then renamed c else c)
      change := if (s.callAt p).isSome then wrap255 s.cm.change else s.cm.change } ∧
    (s.settled = true → t.ls = { s.ls with
      posts := put1 s.ls.posts p { s.post p with identity := id }
      postsChange := if (s.post p).identity = id then s.ls.postsChange else wrap255 s.ls.postsChange }) ∧
    Tells ([.directory] ++ flagIf ((s.post p).identity ≠ id) .posts ++ flagIf ((s.callAt p).isSome = true) .queue)
      (fun k => onlyFor m [.done tag (.version v)] k ++
        match s.callAt p with
        | some c => forThose c.heard (updateMsg t (renamed c) .renamed) k
        | none => []) s t ∧
    (s.settled = true → { t with cs := s.cs, cm := s.cm, ls := s.ls, lif := s.lif } = s)

/-- The message of a superframe is no DISCOVER, PROBE or CLAIM for position p, and no discovery run waits there: what
the answer serves or moves is another position. -/
def Sent.sparing (e : LineEnd) (m : Sent) (p : Nat) : Prop :=
  match m with
  | .discovery _ => ∀ w, e.discovery = some w → w.pos ≠ p
  | .ls _ q => q ≠ p
  | _ => True

/-- A line-end or monitor event leaves the configuration, time, the device state, alignment and the queued commands
alone. -/
def DeviceStands (s t : State) : Prop :=
  t.cs = s.cs ∧ t.time = s.time ∧ t.dev = s.dev ∧ t.align = s.align ∧ t.pending = s.pending ∧ t.placed = s.placed

/-- The post table has changed at no position. -/
def PostsStand (s t : State) : Prop := ∀ p, t.post p = s.post p

end Sys2Proof.Machine
end

