-- ==== Sys2Proof/Certificates/Slice0/Obligations.lean ====
section
/-! DEFINITION. The statements for the provers. A request statement speaks of `s.take m`, the state after the
take of R124, which TakesKeepLinksAlive describes. -/

section
open Sys2Proof Sys2Proof.Machine

/-! ### The machine -/

/-- A step takes the command at the front of the queue and runs it on the rest (the task's step; log entry 1). -/
def Obligations.StepRunsTheFrontCommand : Prop :=
  ∀ (c : Instr) (rest : List Instr) (s : State),
    step { s with pending := c :: rest } = exec c { s with pending := rest }

/-- With an empty queue nothing but time moves the device: a request that waits and may be taken leaves its receive
queue and is run as its command is with that queue empty, the requests behind it standing; else the event that is
due is put in the queue; else part time rises by 1 and the boundary's commands are put in the queue (the model's
choice, log entry 1). In that millisecond a running alignment timer rises by 1 and each control link awaits its next
boundary, the forward-seen age of a WATCHING LE-R rises by 1 up to 16 and is marked as it gets there (log entry 5),
and each line end whose feed is on samples its own current channel: a code of 4000 or more adds 1 to its
over-current run count, and a lower one clears it; the next code of that channel is free (log entry 3). All else
stands but the transmit queues, MP's port and the pins that send (R11, R12, R126, R127, R197). -/
def Obligations.EmptyQueueSchedulesOrPassesTime : Prop :=
  ∀ s : State, s.pending = [] → ∃ t, step s = .next t ∧
    (∀ k y, s.takable = some (k, y) → ∃ u, exec (requestOf k y) (s.setRx k []) = .next u ∧
      t = u.setRx k ((s.lifOf k).rx.drop 1)) ∧
    (∀ k y, s.takable = some (k, y) → (s.lifOf k).canTake = true ∧ (s.lifOf k).rx.head? = some y) ∧
    (s.takable = none → ∀ i, s.dueNow = some i → t = { s with pending := [i] }) ∧
    (s.takable = none → s.dueNow = none →
      let fed := fun (d : Chain) => (s.leOf d).state ∈ [LineState.feeding, .discovering, .running]
      let code : Chain → Nat := fun d => match d with
        | .fwd => s.pins.converter.forwardI.toNat
        | .ret => s.pins.converter.returnI.toNat
      let run := fun (d : Chain) => if fed d then if 4000 ≤ code d then (s.leOf d).overRun + 1 else 0 else (s.leOf d).overRun
      let ages := (s.leOf .ret).state = .watching ∧ (s.leOf .ret).age < 16
      let first := if fed .fwd then 1 else 0
      t.time = s.time + 1 ∧ t.pending = s.boundaryCommands ∧
        (∀ l, t.alignOf l =
          { s.alignOf l with timer := (s.alignOf l).timer.map (· + 1), boundaryTaken := false }) ∧
        t.leOf .fwd = { s.leOf .fwd with overRun := run .fwd } ∧
        t.leOf .ret = { s.leOf .ret with
          overRun := run .ret
          age := if ages then (s.leOf .ret).age + 1 else (s.leOf .ret).age
          ageDue := if ages then decide ((s.leOf .ret).age = 15) else (s.leOf .ret).ageDue } ∧
        t.pins = { s.pins with
          converter := { s.pins.converter with
            forwardI := if fed .fwd then Config.converterCode s.pins.samples else s.pins.converter.forwardI
            returnI := if fed .ret then Config.converterCode (s.pins.samples + first) else s.pins.converter.returnI }
          samples := s.pins.samples + first + if fed .ret then 1 else 0
          linkOut := t.pins.linkOut, mpOut := t.pins.mpOut } ∧
        (∀ k, t.lifOf k = { s.lifOf k with tx := (t.lifOf k).tx }) ∧
        { t with
          time := s.time, pending := s.pending, align := s.align, le := s.le, lif := s.lif, mp := s.mp
          pins := s.pins } = s)

/-- What holds of every block at reset: canonical memory, bounded counters, quiet links, sound calls, offers, posts,
voice and alert table (R18, R69, R119, R123, R150, R193, R197, R198). -/
def Obligations.ResetStateIsSound : Prop :=
  State.reset.cs.memory.wf = true ∧ State.reset.counters.bounded = true ∧ State.reset.linksQuiet = true ∧
    State.reset.queuesFit = true ∧ State.reset.callsSound = true ∧ State.reset.offersSound = true ∧
    State.reset.settled = true ∧ State.reset.postsSound = true ∧ State.reset.voiceSound = true ∧ State.reset.voiceWhole = true ∧
    State.reset.severedSound = true ∧ State.reset.alertsSound = true ∧ State.reset.pending = []

/-- Over every step the serial memory keeps its canonical form and the marks of an event under way are clear again,
both of them the model's own (log entries 6, 7), and every error counter stays within 0 to 255 (R193). -/
def Obligations.MemoryMarksAndCountersStaySound : Prop :=
  ∀ s t : State, Sys2Proof.Machine.step s = .next t →
    (s.cs.memory.wf = true → t.cs.memory.wf = true) ∧ (s.settled = true → t.settled = true) ∧
    (s.counters.bounded = true → t.counters.bounded = true)

/-- Over every step a DOWN link stays without deadline, queued messages, STATUS pending or due and periodic timer, and
no receive queue exceeds its 4 places and no transmit queue its 32 (R123, R128, R185, R187, R189, R190). -/
def Obligations.LinkInterfacesStaySound : Prop :=
  ∀ s t : State, s.linksQuiet = true → s.queuesFit = true → Sys2Proof.Machine.step s = .next t →
    t.linksQuiet = true ∧ t.queuesFit = true

/-- Over every step the numbers of live records and abandoned entries stay distinct and 1 to 255, and at most one
record stands at a position (R69, R78, R94). -/
def Obligations.CallNumbersStayDistinct : Prop :=
  ∀ s t : State, s.callsSound = true → Sys2Proof.Machine.step s = .next t → t.callsSound = true

/-- Over every step the offer set and the overflow flag of every WAITING record stay those that R81 gives for the
links, filters and preference as they stand, and no other record has an offer set or a preference (R70, R72, R79 to
R83). -/
def Obligations.OfferSetsStayCurrent : Prop :=
  ∀ s t : State, s.callsSound = true → s.offersSound = true → Sys2Proof.Machine.step s = .next t →
    t.offersSound = true

/-- Over every step the post table stays sound: a chain serves a position exactly when it is ACTIVE or QUARANTINED,
scores, clean probes and silence keep their ranges, and a usable latest value came over the chain that serves its
post. The positions that the forward chain serves stay below those that the return chain serves over every command,
as long as an answer that makes a chain serve a position comes from this side of all that the other chain serves
(R2, R5, R18, R38, R41, R159). -/
def Obligations.PostTableStaysSound : Prop :=
  (∀ s t : State, s.postsSound = true → Sys2Proof.Machine.step s = .next t → t.postsSound = true) ∧
  ∀ (c : Instr) (s t : State), s.chainsOrdered = true → exec c s = .next t →
    (∀ d frame m, c = .upstreamSuperframe d frame → (s.leOf d).sent = some m →
      let p := match m, (s.leOf d).discovery with
        | .discovery _, some w => w.pos
        | _, _ => m.target
      let answer := cleanResp m (respPart frame)
      (∀ serial kind, answer = some (.ident serial kind) → ∀ q, q ≠ p → s.servedBy (otherChain d) q = true →
        if d = .fwd then p < q else q < p) ∧
      (∀ serial kind, answer = some (.claimed serial kind) → ∀ q, q ≠ p → s.servedBy .ret q = true → p < q)) →
    t.chainsOrdered = true

/-- Over every step a held slot and a held channel belong to a CONNECTED or ALERTING record that names both, the
join between them is that record's, and no other record names a slot or channel; the voice held of each chain,
control link and the handset keeps its length. A live record stays SEVERED exactly while no chain serves its post
(R70, R90, R119 to R121). -/
def Obligations.VoicePathsBelongToCalls : Prop :=
  (∀ s t : State, s.callsSound = true → s.postsSound = true → s.voiceSound = true →
    Sys2Proof.Machine.step s = .next t → t.voiceSound = true) ∧
  (∀ s t : State, s.callsSound = true → s.postsSound = true → s.severedSound = true →
    Sys2Proof.Machine.step s = .next t → t.severedSound = true) ∧
  ∀ s t : State, s.voiceWhole = true → Sys2Proof.Machine.step s = .next t → t.voiceWhole = true

/-- Over every step the alert table holds at most 48 alerts, at most one for each pair, each for an ASSERTED pair and
within the severities of its position's condition, which is the highest severity listed there (R140, R148, R150 to
R152, R156). -/
def Obligations.AlertTableStaysSound : Prop :=
  ∀ s t : State, s.alertsSound = true → Sys2Proof.Machine.step s = .next t → t.alertsSound = true

/-! ### Device, load and save -/

/-- RESET brings every block to its initial values; the serial memory keeps its bytes with those that a SAVE had
written, and the converter's inputs and the queued commands, which lie outside the device, stand (log entry 6).
STARTING lasts 5 ms, then the device enters LOADING and nothing else changes; the command before its time or outside
STARTING changes nothing (log entry 15). LOAD_END installs the working copy that the reading gives, enters RUNNING,
sets the working mode and starts LE-F's FEEDING with its 250 ms settle timer, and sets SETTINGS, DIRECTORY and STORE
for all masters. A memory that gives other bytes holds those from address 0 on and is blank beyond them, which is
the model's choice (log entry 6) (R1, R10, R197, R199 to R201, R207). -/
def Obligations.ResetAndStartUpFollowTheRules : Prop :=
  (∀ (written : Nat) (s : State), ∃ t, exec (.reset written) s = .next t ∧
    { t with
      cs := { t.cs with memory := {} }
      pins := { t.pins with converter := State.reset.pins.converter, samples := 0 }
      pending := [] } = State.reset ∧
    t.cs.memory =
      (if s.cs.stage = .writing then Memory.writeRun 0 (s.cs.writing.take written) s.cs.memory
      else s.cs.memory) ∧
    t.pins.converter = s.pins.converter ∧ t.pins.samples = s.pins.samples ∧ t.pending = s.pending) ∧
  (∀ s : State,
    (s.dev = .starting → 5 ≤ s.time → exec .startingEnd s = .next { s with dev := .loading }) ∧
    (s.dev ≠ .starting ∨ s.time < 5 → exec .startingEnd s = .next s)) ∧
  ∀ (reading : MemReading) (s : State), s.dev = .loading → ∃ t, exec (.loadEnd reading) s = .next t ∧
    (let x := loadOutcome (match reading with
      | .noAnswer => none
      | .asHeld => some (s.cs.memory.readRun 0 imageSize)
      | .other bytes => some ((Memory.writeRun 0 bytes {}).readRun 0 imageSize))
    t.cs.settings = x.settings ∧ t.cs.directory = x.directory ∧ t.cs.version = x.version ∧
      t.cs.source = x.source ∧ t.cs.repairs = x.repairs ∧ t.sp.table = x.polls ∧
      t.ls.mode = (if x.settings.lineMode = .loop ∧ x.settings.expectedPosts ≠ 0 then .loop else .openLine) ∧
      t.ls.n = (if x.settings.lineMode = .loop then x.settings.expectedPosts else 0) ∧
      t.ls.loopUnusable = decide (x.settings.lineMode = .loop ∧ x.settings.expectedPosts = 0)) ∧
    t.cs.memory = (match reading with
      | .other bytes => Memory.writeRun 0 bytes {}
      | _ => s.cs.memory) ∧
    t.dev = .running ∧ (t.leOf .fwd).state = .feeding ∧ (t.leOf .fwd).settle = some (s.time + 250) ∧
    t.flagged .settings ∧ t.flagged .directory ∧ t.flagged .store ∧
    t.time = s.time ∧ t.mp = s.mp ∧ t.pending = s.pending

/-- The image that a SAVE writes loads back as the same working copy, with source STORED and no repair, for every
working copy whose settings, directory and poll table the requests can make (R198 to R200, R205). -/
def Obligations.SavedImageLoadsBack : Prop :=
  ∀ (settings : Settings) (version : Nat) (directory : Vector (Option LocationRecord) 16)
    (polls : Vector PollEntry 32),
    storable settings version directory polls = true →
    loadOutcome (some (imageOf settings version directory polls)) =
      { settings := settings, directory := directory, version := version, polls := polls, source := .stored
        repairs := [] }

/-- An accepted SAVE answers ACCEPTED, holds the image and the version as they stand, in stage WRITING, and changes
nothing else. At SAVE_WRITING_END the memory reads as the image from address 0 on and as before beyond it, and the
stage becomes VERIFYING. A SAVE ends DONE after agreement, FAILED_MISMATCH after a mismatch, FAILED_NO_ANSWER when
the memory does not answer in either stage: the record is renewed, a failure is counted, the requester gets a
COMPLETION unless it is orphaned, STORE is set for all masters, and nothing else changes but COUNTERS for a failure
counted or a notice lost (R187, R193, R205, R206). The bytes of the memory after a mismatch and after a SAVE cut off
are the model's choice (log entry 6). -/
def Obligations.SaveStoresTheImageAndReports : Prop :=
  (∀ (s : State) (m : Master) (tag : Byte), s.ready m → m ≠ .mp → (s.take m).cs.stage = .idle →
    ∃ t, exec (.save m tag []) s = .next t ∧
      t.cs = { (s.take m).cs with
        stage := .writing, requester := some { master := m, tag := tag, orphaned := false }
        writing := imageOf (s.take m).cs.settings (s.take m).cs.version (s.take m).cs.directory (s.take m).sp.table
        writingVersion := (s.take m).cs.version } ∧
      OnlyQueues m (.accepted tag) (s.take m) { t with cs := (s.take m).cs }) ∧
  (∀ s : State, s.cs.stage = .writing → s.cs.memory.wf = true → s.cs.writing.length ≤ memorySize →
    ∃ t, exec .saveWritingEnd s = .next t ∧
      t.cs.memory.readRun 0 s.cs.writing.length = s.cs.writing ∧
      (∀ a, s.cs.writing.length ≤ a → t.cs.memory.read a = s.cs.memory.read a) ∧
      t.cs.stage = .verifying ∧
      { t with cs := { t.cs with stage := s.cs.stage, memory := s.cs.memory } } = s) ∧
  ∀ (s : State) (outcome : SaveOutcome) (result : SaveResult),
    (outcome = .agrees ∧ s.cs.stage = .verifying ∧ result = .done) ∨
      (outcome = .differs ∧ s.cs.stage = .verifying ∧ result = .failedMismatch) ∨
      ((∃ k, outcome = .noAnswer k) ∧ s.cs.stage ≠ .idle ∧ result = .failedNoAnswer) →
    ∃ t, exec (.saveEnd outcome) s = .next t ∧
      t.cs = { s.cs with
        stage := .idle, lastResult := result, lastEnd := some (s.time, s.cs.writingVersion), requester := none
        writing := [], writingVersion := 0
        saveFails := if result = .done then s.cs.saveFails else advanced s.cs.saveFails 1
        memory := match outcome with
          | .noAnswer k =>
            if s.cs.stage = .writing then Memory.writeRun 0 (s.cs.writing.take k) s.cs.memory else s.cs.memory
          | _ => s.cs.memory } ∧
      Tells ([.store] ++ flagIf (result ≠ .done ∧ s.cs.saveFails < 255) .counters)
        (fun k => match s.cs.requester with
          | some x => if x.master = k ∧ x.orphaned = false then
              [.completion x.tag (.save result s.cs.writingVersion)] else []
          | none => []) s t ∧
      { t with cs := s.cs, lif := s.lif } = s

/-! ### Links -/

/-- A take on an UP link is recorded and starts the deadline anew, and nothing else changes. A take on a DOWN link
brings it UP: the deadline and the periodic timer run, all nine flags of the master are set, which makes a STATUS due
when one of them was clear and unmasked, a STATUS with these flags is made, the alignment timer of a SEARCHING control
link runs, and then the offer set of every WAITING call is computed anew with its notices and tones; nothing else
changes. ALIVE has no other effect than its take and DONE. That the change number advances once for each record is the
model's reading (log entry 9) (R79 to R84, R124, R127, R133, R189 to R191). -/
def Obligations.TakesKeepLinksAlive : Prop :=
  (∀ (s : State) (m : Master), (s.lifOf m).link = .up →
    (s.take m).lifOf m = { s.lifOf m with
      lastTake := some s.time, deadline := some (s.time + s.cs.settings.keepAlive.get m) } ∧
    (∀ k, k ≠ m → (s.take m).lifOf k = s.lifOf k) ∧ { s.take m with lif := s.lif } = s) ∧
  (∀ (s : State) (m : Master), (s.lifOf m).link = .down → s.callsSound = true →
    let mask := s.cs.settings.eventMask.get m
    let l := { s.lifOf m with
      link := .up, lastTake := some s.time, deadline := some (s.time + s.cs.settings.keepAlive.get m)
      periodic := some (s.time + 1000), flags := BitVec.allOnes 9
      statusDue := (s.lifOf m).statusDue || (~~~(s.lifOf m).flags &&& ~~~mask) != 0 }
    let v := { s with lif := s.lif.set m (l.withStatus { s.statusFor m with flags := BitVec.allOnes 9 }) }
    let changed := (s.cm.queue.filter fun c => v.reoffered c != c).length
    let t := s.take m
    t.cm = { s.cm with queue := s.cm.queue.map v.reoffered, change := repeated wrap255 changed s.cm.change } ∧
      Tells (flagIf (changed ≠ 0) .queue) (fun k => s.cm.queue.flatMap fun c => offerChange v c.offer (v.reoffered c) k)
        v t ∧
      (∀ d, t.leOf d = { s.leOf d with signalling := v.retoned d s.cm.queue (s.leOf d).signalling }) ∧
      (∀ k, t.alignOf k = if masterLink m = some k ∧ (s.alignOf k).state = .searching ∧ (s.alignOf k).timer = none
        then { s.alignOf k with timer := some 0 } else s.alignOf k) ∧
      { t with cm := s.cm, lif := s.lif, le := s.le, align := s.align } = s) ∧
  ∀ (s : State) (m : Master) (tag : Byte), s.ready m → ∃ t, exec (.alive m tag []) s = .next t ∧
    OnlyQueues m (.done tag .empty) (s.take m) t

/-- While the LIF may not take a request (its transmit queue is full or a STATUS is pending), a message of any kind
but 0 joins the tail of its receive queue when a place is free, and nothing else changes. In a full one it is
discarded and counted as an overrun; to an UP master it is refused BUSY, at the tail of the transmit queue when a
place is free, and else in place of the newest notice not yet in transmission, which is counted as lost with QUEUE set
for that master; without such a notice the refusal is discarded. Nothing else changes (R185, R187, R193, R209). -/
def Obligations.RequestWaitsOrOverruns : Prop :=
  ∀ (s : State) (m : Master) (x : Message), x.kind ≠ 0 → (s.lifOf m).canTake = false →
    ((s.lifOf m).rx.length < 4 →
      ∃ t, exec (requestOf m x) s = .next t ∧
        t.lifOf m = { s.lifOf m with
          rx := (s.lifOf m).rx ++ [{ kind := x.kind, tag := x.tag, body := x.body }] } ∧
        (∀ k, k ≠ m → t.lifOf k = s.lifOf k) ∧ { t with lif := s.lif } = s) ∧
    ∀ tx n, 4 ≤ (s.lifOf m).rx.length →
      (let l := s.lifOf m
       let refusal : TxEntry := ⟨.refused x.tag .busy none, 0⟩
       let gives := fun (e : TxEntry) => e.msg.isNotice = true ∧ e.sent = 0
       (l.link = .down ∧ tx = l.tx ∧ n = 0) ∨
        (l.link = .up ∧ l.tx.length < 32 ∧ tx = l.tx ++ [refusal] ∧ n = 0) ∨
        (l.link = .up ∧ 32 ≤ l.tx.length ∧ (∃ before e later, l.tx = before ++ e :: later ∧ gives e ∧
          (∀ y, y ∈ later → ¬ gives y) ∧ tx = before ++ later ++ [refusal]) ∧ n = 1) ∨
        (l.link = .up ∧ 32 ≤ l.tx.length ∧ (∀ y, y ∈ l.tx → ¬ gives y) ∧ tx = l.tx ∧ n = 0)) →
      ∃ t, exec (requestOf m x) s = .next t ∧
        (∀ k, t.lifOf k =
          (let v := (s.lifOf k).told (s.cs.settings.eventMask.get k)
            (flagSet (flagIf ((s.lifOf m).overruns < 255 ∨ (n = 1 ∧ (s.lifOf m).lost < 255)) .counters ++
              flagIf (k = m ∧ n = 1) .queue)) []
           if k = m then { v with tx := tx, overruns := advanced v.overruns 1, lost := advanced v.lost n } else v)) ∧
        { t with lif := s.lif } = s

/-- Refusals of the LIF and of the owners' first check, after which nothing follows the take: before RUNNING every
request is refused NOT_READY; a message of a kind above 31, and a request whose body has not the length its kind
requires, is refused BAD_VALUE, but for one that MP has no right to make; and a call number that no live record has is
answered NO_SUCH_CALL by ANSWER, HOLD, RETRIEVE, TRANSFER, CLEAR and CLOSE. Kind 0 is never a message: it is not taken
and changes nothing (R92, R100, R104, R106, R107, R109, R124, R182, R196, R197, R209). -/
def Obligations.UnreadyAndUnreadableRequestsAreRefused : Prop :=
  (∀ (s : State) (m : Master) (x : Message), x.kind ≠ 0 → s.dev ≠ .running → (s.lifOf m).rx = [] →
    (s.lifOf m).canTake = true → ((s.take m).lifOf m).hasRoom = true → Refuses m x .notReady s) ∧
  (∀ (s : State) (m : Master) (kind tag : Byte) (body : List Byte),
    (kind ≠ 0 → s.ready m → ∃ t, exec (.unknownKind m kind tag body) s = .next t ∧
      OnlyQueues m (.refused tag .badValue none) (s.take m) t) ∧
    (kind = 0 → exec (.unknownKind m kind tag body) s = .next s)) ∧
  (∀ (s : State) (m : Master) (x : Message) (n : Nat), s.ready m → x.kind ≠ 0 →
    (31 < x.kind.toNat ∨
      (bodyLength x.kind.toNat = some n ∧ x.body.length ≠ n ∧ ¬ (m = .mp ∧ x.kind ∈ deniedToMp))) →
    Refuses m x .badValue s) ∧
  ∀ (s : State) (m : Master) (x : Message) (num v : Byte), s.ready m → (s.take m).callOf num.toNat = none →
    ((x.kind.toNat ∈ [4, 6] ∧ x.body = [num, v]) ∨
      (x.kind.toNat = 7 ∧ x.body = [num, v] ∧ 1 ≤ v.toNat ∧ v.toNat ≤ 3) ∨
      (x.kind.toNat ∈ [5, 8] ∧ x.body = [num]) ∨ (x.kind.toNat = 10 ∧ m ≠ .mp ∧ x.body = [num])) →
    Refuses m x .noSuchCall s

/-- The requests that MP has no right to make are refused NOT_PERMITTED to MP whatever their body and whatever the
links do, and nothing else follows their take, which leaves the link UP with its deadline started anew (R196). -/
def Obligations.MpRightsAreLimited : Prop :=
  ∀ (s : State) (x : Message), s.ready .mp → x.kind ∈ deniedToMp →
    Refuses .mp x .notPermitted s ∧ ((s.take .mp).lifOf .mp).link = .up ∧
      ((s.take .mp).lifOf .mp).deadline = some (s.time + s.cs.settings.keepAlive.mp)

/-- While a SAVE is in flight, well formed WRITE_ENTRY, ERASE_ENTRY, WRITE_SETTING, SAVE and WRITE_POLL requests of a
master with the right to make them are refused BUSY, and nothing else follows their take (R55, R56, R141, R203,
R205). -/
def Obligations.SaveInFlightHoldsOffChanges : Prop :=
  ∀ (s : State) (m : Master) (x : Message), s.ready m → (s.take m).cs.stage ≠ .idle →
    ((m ≠ .mp ∧ x.kind.toNat = 13 ∧ (entryOperands x.body).isSome) ∨
      (m ≠ .mp ∧ x.kind.toNat = 14 ∧ ∃ p : Byte, x.body = [p] ∧ 1 ≤ p.toNat ∧ p.toNat ≤ 16) ∨
      (m ≠ .mp ∧ x.kind.toNat = 17 ∧ (settingOperands x.body).isSome) ∨
      (m ≠ .mp ∧ x.kind.toNat = 18 ∧ x.body = []) ∨
      (x.kind.toNat = 20 ∧ (pollOperands x.body).isSome)) →
    Refuses m x .busy s

/-- READ_QUEUE and READ_ABANDONED answer the count, the change number or overflow counter, and the page of at most
four records or entries from the place asked for; READ_ENTRY, READ_SETTINGS and READ_STORE answer the entry with
version, identity and serial, the settings with the working mode and n, and the store record with the version, whether
or not a SAVE is in flight. Each clears its flag for the sender and changes nothing else. A malformed READ_SETTINGS or
READ_STORE is refused BAD_VALUE (R56, R77, R97, R191, R204). -/
def Obligations.CallAndStoreReadsReport : Prop :=
  (∀ (s : State) (m : Master) (tag first : Byte), s.ready m → 1 ≤ first.toNat →
    (first.toNat ≤ 16 → ∃ t, exec (.readQueue m tag [first]) s = .next t ∧
      OnlyReads m tag
        (.queuePage (s.take m).cm.queue.length (s.take m).cm.change
          ((((s.take m).cm.queue.drop (first.toNat - 1)).take 4).map (s.take m).callReport))
        .queue (s.take m) t) ∧
    (first.toNat ≤ 8 → ∃ t, exec (.readAbandoned m tag [first]) s = .next t ∧
      OnlyReads m tag
        (.abandonedPage (s.take m).cm.abandoned.length (s.take m).cm.overflow
          (((s.take m).cm.abandoned.drop (first.toNat - 1)).take 4))
        .abandoned (s.take m) t)) ∧
  ∀ (s : State) (m : Master) (tag p : Byte), s.ready m →
    (1 ≤ p.toNat → p.toNat ≤ 16 → ∃ t, exec (.readEntry m tag [p]) s = .next t ∧
      OnlyReads m tag
        (.entry p.toNat ((s.take m).entry p.toNat) (s.take m).cs.version ((s.take m).post p.toNat).identity
          ((s.take m).post p.toNat).serial)
        .directory (s.take m) t) ∧
    (∃ t, exec (.readSettings m tag []) s = .next t ∧
      OnlyReads m tag (.settings (s.take m).cs.settings (s.take m).ls.mode (s.take m).ls.n) .settings (s.take m) t) ∧
    (∃ t, exec (.readStore m tag []) s = .next t ∧
      OnlyReads m tag (.store (s.take m).storeReport) .store (s.take m) t) ∧
    ∀ body, body ≠ [] → Refuses m { kind := 15, tag := tag, body := body } .badValue s ∧
      Refuses m { kind := 16, tag := tag, body := body } .badValue s

/-- READ_POLL answers the entry and its pairs and changes nothing; READ_ALERTS, READ_LINE and READ_POSTS answer their
counts, change numbers and pages of at most four from the place asked for, and clear ALERTS, LINE or POSTS for the
sender and change nothing else. The order of the pairs is the model's choice (log entry 55) (R143, R155, R180, R181,
R191, R195). -/
def Obligations.PollerAndLineReadsReport : Prop :=
  (∀ (s : State) (m : Master) (tag v : Byte), s.ready m →
    (v.toNat ≤ 31 → ∃ t, exec (.readPoll m tag [v]) s = .next t ∧
      OnlyQueues m
        (.done tag (.pollPage ((s.take m).pollEntry v.toNat)
          (((s.take m).sp.pairs.filter (·.entry == v.toNat)).map (s.take m).pairReport)))
        (s.take m) t) ∧
    (1 ≤ v.toNat → v.toNat ≤ 48 → ∃ t, exec (.readAlerts m tag [v]) s = .next t ∧
      OnlyReads m tag
        (.alertsPage (s.take m).sp.alerts.length (s.take m).sp.change (s.take m).sp.drops
          ((((s.take m).sp.alerts.drop (v.toNat - 1)).take 4).map (s.take m).alertEntry))
        .alerts (s.take m) t)) ∧
  ∀ (s : State) (m : Master) (tag v w : Byte), s.ready m →
    (∀ k, sectionOf v.toNat = some k → k.holds w.toNat = true → ∃ t, exec (.readLine m tag [v, w]) s = .next t ∧
      OnlyReads m tag (.line (s.take m).lm.change ((s.take m).section_ k w.toNat)) .line (s.take m) t) ∧
    (1 ≤ v.toNat → v.toNat ≤ 16 → ∃ t, exec (.readPosts m tag [v]) s = .next t ∧
      OnlyReads m tag
        (.posts (s.take m).ls.postsChange (s.take m).ls.mode (s.take m).ls.n (s.take m).b (s.take m).r
          (((positions.drop (v.toNat - 1)).take 4).map (s.take m).postReport))
        .posts (s.take m) t)

/-- READ_COUNTERS answers the sixteen counters and clears COUNTERS for the sender. CLEAR_COUNTERS answers them as they
stood, sets all of them to 0, and sets COUNTERS for all masters when any stood above 0; both leave everything else
as it is (R190, R193, R194). -/
def Obligations.CountersAreReadAndCleared : Prop :=
  ∀ (s : State) (m : Master) (tag : Byte), s.ready m →
    (∃ t, exec (.readCounters m tag []) s = .next t ∧
      OnlyReads m tag (.counters (s.take m).counters) .counters (s.take m) t) ∧
    (∃ t, exec (.clearCounters m tag []) s = .next t ∧
      t.counters =
        { statusFails := ⟨0, 0⟩, respFails := ⟨0, 0⟩, frameFails := ⟨0, 0, 0⟩, overruns := ⟨0, 0, 0⟩
          lost := ⟨0, 0, 0⟩, abandonedOverflows := 0, alertDrops := 0, saveFails := 0 } ∧
      (let u := s.take m
       (∀ k, t.lifOf k = { (u.lifOf k).told (u.cs.settings.eventMask.get k)
          (flagSet (flagIf (u.counters.anyAbove = true) .counters))
          (onlyFor m [.done tag (.counters u.counters)] k) with
            frameFails := 0, overruns := 0, lost := 0 }) ∧
        (∀ d, t.leOf d = { u.leOf d with statusFails := 0, respFails := 0 }) ∧
        { t with lif := u.lif, le := u.le } = { u with
          cm := { u.cm with overflow := 0 }, sp := { u.sp with drops := 0 }, cs := { u.cs with saveFails := 0 } }))

/-- A frame boundary of a control link that has not had one in this millisecond: in ALIGNED a boundary without a
frame that passes adds a miss, discards the message in assembly and silences the voice, a frame that fails its check
being counted, and the fourth starts SEARCHING with its timer at 0; in SEARCHING it drops the candidate. A first
frame that passes in SEARCHING becomes the candidate, and a second ends SEARCHING and stops the timer; that one, and
a frame that passes in ALIGNED, clears the misses, brings its voice to the held channels and its message section to
the assembly, and when no message ends in it nothing else changes but the count of an unframable header (R121, R126,
R127, R183, R193, R208). A second boundary in the millisecond is none (log entry 15). What a missing frame does to
the assembly and the voice is the model's reading (log entry 32), and so is an unframable offset within a message
(log entry 47). -/
def Obligations.FrameBoundariesAlignTheLink : Prop :=
  ∀ (s : State) (l : ControlLink) (f : List Byte) (frame : Option (List Byte)),
    ((s.alignOf l).boundaryTaken = true → exec (.linkFrameReceived l frame) s = .next s) ∧
    ((s.alignOf l).boundaryTaken = false →
      (frame = none ∨ (frame = some f ∧ framePasses f = false) →
        ((s.alignOf l).state = .aligned → ∃ t, exec (.linkFrameReceived l frame) s = .next t ∧
          t.alignOf l = { s.alignOf l with
            boundaryTaken := true, misses := (s.alignOf l).misses + 1, assembly := []
            voice := List.replicate 64 silenceCode
            state := if 3 ≤ (s.alignOf l).misses then .searching else .aligned
            timer := if 3 ≤ (s.alignOf l).misses then some 0 else (s.alignOf l).timer
            candidate := if 3 ≤ (s.alignOf l).misses then false else (s.alignOf l).candidate } ∧
          (∀ k, k ≠ l → t.alignOf k = s.alignOf k) ∧
          (let fails := (s.lifOf (linkMaster l)).frameFails
           let v := if frame = none then s
             else s.modLif (linkMaster l) fun x => { x with frameFails := advanced fails 1 }
           Tells (flagIf (frame ≠ none ∧ fails < 255) .counters) silent v t) ∧
          { t with align := s.align, lif := s.lif } = s) ∧
        ((s.alignOf l).state = .searching → ∃ t, exec (.linkFrameReceived l frame) s = .next t ∧
          t.alignOf l = { s.alignOf l with boundaryTaken := true, candidate := false } ∧
          (∀ k, k ≠ l → t.alignOf k = s.alignOf k) ∧ { t with align := s.align } = s)) ∧
      (framePasses f = true → (s.alignOf l).state = .searching → (s.alignOf l).candidate = false →
        ∃ t, exec (.linkFrameReceived l (some f)) s = .next t ∧
          t.alignOf l = { s.alignOf l with boundaryTaken := true, candidate := true } ∧
          (∀ k, k ≠ l → t.alignOf k = s.alignOf k) ∧ { t with align := s.align } = s) ∧
      (framePasses f = true → (s.alignOf l).state = .aligned ∨ (s.alignOf l).candidate = true →
        let x := takeSection (s.alignOf l).assembly f
        let searching := (s.alignOf l).state = .searching
        ∃ t, exec (.linkFrameReceived l (some f)) s = .next t ∧
          t.alignOf l = { s.alignOf l with
            boundaryTaken := true, misses := 0, state := .aligned, assembly := x.assembly
            voice := s.linkVoice l ((f.drop 2).take 64)
            timer := if searching then none else (s.alignOf l).timer
            candidate := if searching then false else (s.alignOf l).candidate } ∧
          (∀ k, k ≠ l → t.alignOf k = s.alignOf k) ∧
          (x.out = [] → x.bad ≤ 1 ∧ { t with align := s.align, lif := s.lif } = s ∧
            (let fails := (s.lifOf (linkMaster l)).frameFails
             Tells (flagIf (x.bad = 1 ∧ fails < 255) .counters) silent
               (s.modLif (linkMaster l) fun y => { y with frameFails := advanced fails x.bad }) t))))

/-- A message that arrives whole is its request. The characters of a message of a kind other than 0 (start mark, kind,
tag, length, body, check) do on MP, with nothing in assembly, what the command of that message does, the time of the
last character kept; a 0 after the start mark begins no message, and what comes after it is taken as with nothing in
assembly. The message section of a good frame does on an aligned link, once the frame's voice and the misses are set,
what the commands of all messages that end in it do, one after the other: it goes on with the message in assembly, or
begins at the header's offset, and what it begins and does not end is in assembly afterwards, for the next frame's
section to go on with. More than 5 ms after the last character on MP's UART the message in assembly is discarded and counted as a
frame check failure, up to 255, which sets COUNTERS for all masters; a gap of 5 ms, or one outside a message,
changes nothing; and characters that come after such a gap find no message in assembly. That the LIF waits for the
next start mark after a 0 is the model's choice (log entry 16), and so is a header's offset beside a message in
assembly (log entry 62) (R126, R182 to R184, R193, R208, R209). -/
def Obligations.MessagesArriveAsSent : Prop :=
  (∀ s : State, s.mp.assembly = none →
    (∀ x : Message, x.sendable →
      ∃ t, exec (.mpMessageReceived ((startMark :: withCheck x.bytes).map some)) s = .next t ∧
        exec (requestOf .mp x) { s with mp := { s.mp with heard := s.time } } = .next t) ∧
    ∀ later, exec (.mpMessageReceived ([some startMark, some 0] ++ later)) s =
      exec (.mpMessageReceived later) { s with mp := { s.mp with heard := s.time } }) ∧
  (∀ (s : State) (l : ControlLink) (xs : List Message) (voice before part left : List Byte) (offset : Option Nat),
    (s.alignOf l).boundaryTaken = false → (s.alignOf l).state = .aligned → voice.length = 64 →
    before.length + part.length ≤ 60 → (∀ k, offset = some k → k < 60) → (∀ x, x ∈ xs → x.sendable) →
    (let begun := (s.alignOf l).assembly
     begun ++ part = xs.flatMap Message.bytes ++ left ∧
      (begun = [] → offset = some before.length) ∧
      (begun ≠ [] → before = [] ∧ ∀ x, xs.head? = some x → begun.length < x.bytes.length)) →
    (left ≠ [] → before.length + part.length = 60 ∧
      ∃ y : Message, y.sendable ∧ left <+: y.bytes ∧ left.length < y.bytes.length) →
    ∃ t, exec (.linkFrameReceived l (some (linkFrame voice (before ++ part) offset))) s = .next t ∧
      Runs (xs.map (requestOf (linkMaster l)))
        (s.modAlign l fun a => { a with
          boundaryTaken := true, misses := 0, voice := s.linkVoice l voice, assembly := left }) t) ∧
  ∀ s : State,
    (s.mp.assembly = none ∨ s.time ≤ s.mp.heard + 5 → exec .mpCharacterGap s = .next s) ∧
    (s.mp.assembly.isSome → s.mp.heard + 5 < s.time → ∃ t, exec .mpCharacterGap s = .next t ∧
      t.mp = { s.mp with assembly := none } ∧
      Tells (flagIf ((s.lifOf .mp).frameFails < 255) .counters) silent
        (s.modLif .mp fun l => { l with frameFails := advanced l.frameFails 1 }) t ∧
      { t with mp := s.mp, lif := s.lif } = s ∧
      ∀ chars, exec (.mpMessageReceived chars) s = exec (.mpMessageReceived chars) t)

/-- The deadline of an UP link makes it go DOWN: its deadline, transmit queue and periodic timer end, its access and
a SAVE of its own are orphaned; of the calls it owned, CONNECTED and HELD ones are WAITING again, rescued and
without slot, channel or owner, ALERTING ones have ended, CLEARING ones have no owner; the state of every other call
stands, and so does the receive queue. No flag is cleared, and none but QUEUE, COUNTERS and LINE is set. At 50 ms
the alignment timer of a control link stops, and an UP link goes DOWN as it does at its deadline; of a DOWN link
nothing else changes (R123, R125, R127 to R130, R137). Before its time either command changes nothing (log entry
15). -/
def Obligations.LinkDownRescuesCalls : Prop :=
  (∀ (s : State) (m : Master), s.callsSound = true → (s.lifOf m).link = .up →
    ((∀ d, (s.lifOf m).deadline = some d → s.time < d) → exec (.keepAliveExpiry m) s = .next s) ∧
    ((∃ d, (s.lifOf m).deadline = some d ∧ d ≤ s.time) → ∃ t, exec (.keepAliveExpiry m) s = .next t ∧
      (t.lifOf m).link = .down ∧ (t.lifOf m).deadline = none ∧ (t.lifOf m).tx = [] ∧
      (t.lifOf m).statusPending = false ∧ (t.lifOf m).statusDue = false ∧ (t.lifOf m).periodic = none ∧
      (t.lifOf m).rx = (s.lifOf m).rx ∧
      (t.lifOf m).access = (s.lifOf m).access.map (fun a => { a with orphaned := true }) ∧
      (∀ num c, s.callOf num = some c → c.owner = some m →
        (c.state = .connected ∨ c.state = .held → ∃ x, t.callOf num = some x ∧ x.state = .waiting ∧
          x.owner = none ∧ x.lastOwner = some m ∧ x.slot = none ∧ x.channel = none ∧ x.flags.rescued = true ∧
          x.timer = s.time) ∧
        (c.state = .alerting → t.callOf num = none) ∧
        (c.state = .clearing → ∃ x, t.callOf num = some x ∧ x.state = .clearing ∧ x.owner = none)) ∧
      (∀ num c, s.callOf num = some c → c.owner ≠ some m → ∃ x, t.callOf num = some x ∧ x.state = c.state ∧
        x.owner = c.owner ∧ x.slot = c.slot ∧ x.channel = c.channel ∧ x.timer = c.timer) ∧
      (∀ k, k ≠ m → (t.lifOf k).link = (s.lifOf k).link ∧ (t.lifOf k).rx = (s.lifOf k).rx) ∧
      (∀ k, (s.lifOf k).flags &&& ~~~(t.lifOf k).flags = 0 ∧
        (t.lifOf k).flags &&& ~~~(s.lifOf k).flags &&& ~~~flagSet [.queue, .counters, .line] = 0) ∧
      t.cs = { s.cs with requester := s.cs.requester.map fun x =>
        if x.master = m then { x with orphaned := true } else x } ∧
      t.time = s.time ∧ t.dev = s.dev ∧ t.align = s.align ∧ t.mp = s.mp ∧ t.pending = s.pending ∧ t.sp = s.sp ∧
      t.ls.posts = s.ls.posts)) ∧
  ∀ (s : State) (l : ControlLink) (v : Nat), (s.alignOf l).timer = some v →
    (v < 50 → exec (.alignmentTimerExpiry l) s = .next s) ∧
    (50 ≤ v → (s.lifOf (linkMaster l)).link = .up →
      exec (.alignmentTimerExpiry l) s = exec (.keepAliveExpiry (linkMaster l))
        ((s.modAlign l fun a => { a with timer := none }).modLif (linkMaster l) fun x =>
          { x with deadline := some s.time })) ∧
    (50 ≤ v → (s.lifOf (linkMaster l)).link = .down →
      exec (.alignmentTimerExpiry l) s = .next (s.modAlign l fun a => { a with timer := none }))

/-- When all bytes of the head have been sent it leaves its transmit queue, and a pending STATUS is then made with its
content taken now; the periodic timer of an UP link and a flag that became due each make a STATUS with the content
of the moment, and the periodic timer starts anew, 1000 ms long; nothing else changes (R187, R189, R190). -/
def Obligations.QueuesDrainAndStatusIsMade : Prop :=
  (∀ (s : State) (m : Master) (e : TxEntry) (es : List TxEntry), (s.lifOf m).tx = e :: es →
    e.msg.size + (if m = .mp then 3 else 0) ≤ e.sent → ∃ t, exec (.messageSent m) s = .next t ∧
      t.lifOf m = (if (s.lifOf m).statusPending then
          ({ s.lifOf m with tx := es, statusPending := false } : Lif).withStatus (s.statusFor m)
        else { s.lifOf m with tx := es }) ∧
      (∀ k, k ≠ m → t.lifOf k = s.lifOf k) ∧ { t with lif := s.lif } = s) ∧
  ∀ (s : State) (m : Master), (s.lifOf m).link = .up →
    ((∃ d, (s.lifOf m).periodic = some d ∧ d ≤ s.time) → ∃ t, exec (.periodicStatus m) s = .next t ∧
      t.lifOf m = { (s.lifOf m).withStatus (s.statusFor m) with periodic := some (s.time + 1000) } ∧
      (∀ k, k ≠ m → t.lifOf k = s.lifOf k) ∧ { t with lif := s.lif } = s) ∧
    ((s.lifOf m).statusDue = true → ∃ t, exec (.flagDrivenStatus m) s = .next t ∧
      t.lifOf m = { (s.lifOf m).withStatus (s.statusFor m) with statusDue := false } ∧
      (∀ k, k ≠ m → t.lifOf k = s.lifOf k) ∧ { t with lif := s.lif } = s)

/-- In a millisecond each control link sends a frame that passes its check and carries the next 60 bytes of its
transmit queue's messages, one after the other, with fill behind them and the place of the first message that begins
there, and the voice of its held channels, silence for a free one, where the voice held is whole (VoicePathsBelongToCalls) and every join names a slot 1 to 6; MP's UART sends the next characters of its own
messages, 11.52 in the mean (log entry 14). The queues keep their messages. The voice of a frame or superframe that
arrives on a free channel or slot is discarded, a free slot carries silence downstream, and a handset sample is
exchanged while MP's channel is held and silenced both ways while it is free (R121, R183, R184, R187, R208, R210).
-/
def Obligations.FramesCarryMessagesAndVoice : Prop :=
  (∀ (s : State) (l : ControlLink), s.pending = [] → s.takable = none → s.dueNow = none →
    let left := fun (x : State) (m : Master) (bytes : OutMsg → List Byte) =>
      (x.lifOf m).tx.flatMap fun e => (bytes e.msg).drop e.sent
    let m := linkMaster l
    ∃ t, step s = .next t ∧
      (let f := t.pins.linkOut.get l
       left t m OutMsg.bytes = (left s m OutMsg.bytes).drop 60 ∧
        (t.lifOf m).tx.map (·.msg) = (s.lifOf m).tx.map (·.msg) ∧
        (∀ before e later, (s.lifOf m).tx = before ++ e :: later → e.sent = 0 → (∀ y, y ∈ before → y.sent ≠ 0) →
          (byteAt f 1).toNat =
            (let k := (before.flatMap fun y => y.msg.bytes.drop y.sent).length
             if k < 60 then k else 255)) ∧
        ((∀ y, y ∈ (s.lifOf m).tx → y.sent ≠ 0) → byteAt f 1 = 255) ∧
        ((∀ d, (s.vx.upVoice.get d).length = 48) →
          (∀ k j, s.channelOf m k = some j → 1 ≤ j.slot ∧ j.slot ≤ 6) →
          framePasses f = true ∧ slice 66 60 f = (left s m OutMsg.bytes ++ List.replicate 60 0).take 60 ∧
          ∀ ch, 1 ≤ ch → ch ≤ 8 → slice (2 + 8 * (ch - 1)) 8 f = (match s.channelOf m ch with
            | some j => slice (8 * (j.slot - 1)) 8 (s.vx.upVoice.get j.chain)
            | none => List.replicate 8 213))) ∧
      (let k := (s.mp.credit + 1152) / 100
       t.pins.mpOut = (left s .mp mpChars).take k ∧ left t .mp mpChars = (left s .mp mpChars).drop k ∧
        (t.lifOf .mp).tx.map (·.msg) = (s.lifOf .mp).tx.map (·.msg) ∧
        t.mp = { s.mp with
          credit := if k ≤ (left s .mp mpChars).length then (s.mp.credit + 1152) % 100 else 0 })) ∧
  (∀ (s : State) (l : ControlLink) (d : Chain) (voice : List Byte) (k : Nat), 1 ≤ k →
    (voice.length = 64 → k ≤ 8 → slice (8 * (k - 1)) 8 (s.linkVoice l voice) =
      if (s.channelOf (linkMaster l) k).isSome then slice (8 * (k - 1)) 8 voice else List.replicate 8 213) ∧
    (k ≤ 6 → slice (8 * (k - 1)) 8 (s.slotVoice d voice) =
      if (s.slotOf d k).isSome then slice (8 * (k - 1)) 8 (upVoiceOf voice) else List.replicate 8 213) ∧
    ((∀ x, (s.alignOf x).voice.length = 64) → s.mp.voiceIn.length = 8 → k ≤ 6 →
      (∀ m ch j, s.channelOf m ch = some j → (j.chain, j.slot) ≠ (d, k)) →
      slice (8 * (k - 1)) 8 (s.downVoice d) = List.replicate 8 213) ∧
    ((∀ x, (s.alignOf x).voice.length = 64) → s.mp.voiceIn.length = 8 → k ≤ 6 → ∀ m ch j,
      s.channelOf m ch = some j → (j.chain, j.slot) = (d, k) →
      (∀ m' ch' j', s.channelOf m' ch' = some j' → (j'.chain, j'.slot) = (d, k) → (m', ch') = (m, ch)) →
      slice (8 * (k - 1)) 8 (s.downVoice d) = s.voiceFrom m ch)) ∧
  ∀ (s : State) (sample : Byte), ∃ t, exec (.handsetAudioSample sample) s = .next t ∧
    ((s.channelOf .mp 1).isSome →
      t.mp = { s.mp with voiceIn := s.mp.voiceIn.drop 1 ++ [sample], voiceOut := s.mp.voiceOut.drop 1 } ∧
      t.pins = { s.pins with audioOut := s.mp.voiceOut.headD 213 }) ∧
    (s.channelOf .mp 1 = none →
      t.mp = { s.mp with voiceIn := s.mp.voiceIn.drop 1 ++ [213], voiceOut := [] } ∧
      t.pins = { s.pins with audioOut := 213 }) ∧
    { t with mp := s.mp, pins := s.pins } = s

/-! ### Calls -/

/-- The allocator gives the first number after its last one, wrapping from 255 to 1, that neither a live record nor
an abandoned entry holds, and 1 after reset. In a queue in rank order a record joins after every record whose class
ranks equal or higher and before every other, and the queue stays in rank order. The offer set of a WAITING call
follows the first step that applies: the preferred master alone when it is in E; E when escalated; the masters of E
whose filters accept; else E with the overflow flag when E is nonempty; so it holds only masters of E, and some when
E has some (R76, R78 to R81). -/
def Obligations.NewRecordsAreNumberedPlacedAndOffered : Prop :=
  (State.reset.nextNumber = 1 ∧
    ∀ s : State, s.cm.queue.length + s.cm.abandoned.length < 255 → ∃ i, i < 255 ∧
      s.nextNumber = (s.cm.lastNumber + i) % 255 + 1 ∧ s.numberHeld s.nextNumber = false ∧
      ∀ j, j < i → s.numberHeld ((s.cm.lastNumber + j) % 255 + 1) = true) ∧
  (∀ (c : Call) (q : List Call), q.Pairwise (fun x y => x.cls.code ≤ y.cls.code) →
    insertCall c q = q.filter (fun x => x.cls.code ≤ c.cls.code) ++ c :: q.filter (fun x => c.cls.code < x.cls.code) ∧
      (insertCall c q).Pairwise (fun x y => x.cls.code ≤ y.cls.code)) ∧
  ∀ (s : State) (c : Call),
    let E := fun k => (s.lifOf k).link = .up ∧
      ¬ (k = .mp ∧ c.cls = .emergency ∧ ((s.lifOf .clA).link = .up ∨ (s.lifOf .clB).link = .up))
    let accepts := fun k => (s.cs.settings.offerFilter.get k).positions.getLsbD (c.pos - 1) = true ∧
      (s.cs.settings.offerFilter.get k).classes.getLsbD (c.cls.code - 1) = true
    let o := s.offersFor c
    (∀ x, c.pref = some x → E x.master → (∀ k, o.1.get k = true ↔ k = x.master) ∧ o.2 = false) ∧
      ((∀ x, c.pref = some x → ¬ E x.master) →
        (c.flags.escalated = true → (∀ k, o.1.get k = true ↔ E k) ∧ o.2 = false) ∧
        (c.flags.escalated = false →
          ((∃ k, E k ∧ accepts k) → (∀ k, o.1.get k = true ↔ E k ∧ accepts k) ∧ o.2 = false) ∧
          ((¬ ∃ k, E k ∧ accepts k) → (∀ k, o.1.get k = true ↔ E k) ∧ (o.2 = true ↔ ∃ k, E k)))) ∧
      (∀ k, o.1.get k = true → E k) ∧ ((∃ k, E k) → ∃ k, o.1.get k = true)

/-- ANSWER of a live call is refused by the first check of R100 that fails, with the owner named in ALREADY_ANSWERED
and a CALL_UPDATE with cause NO_SLOT to the offer set after NO_SLOT; the call and the voice paths stand (R100, R102).
The one advance of the change number is the model's reading (log entry 9). -/
def Obligations.AnswerIsCheckedInOrder : Prop :=
  ∀ (s : State) (m : Master) (tag num ch : Byte) (c : Call), s.ready m →
    (s.take m).callOf num.toNat = some c →
    (∀ r owner,
      (¬ (s.take m).eligible m c.cls ∧ r = .notPermitted ∧ owner = none) ∨
      ((s.take m).eligible m c.cls ∧ (∃ k, c.owner = some k ∧ k ≠ m) ∧
        c.state ∈ [.connected, .held, .clearing] ∧ r = .alreadyAnswered ∧ owner = c.owner) ∨
      ((s.take m).eligible m c.cls ∧ c.state ∈ [.alerting, .severed] ∧ r = .wrongState ∧ owner = none) ∨
      ((s.take m).eligible m c.cls ∧ (c.owner = none ∨ c.owner = some m) ∧
        c.state ∈ [.connected, .held, .clearing] ∧ r = .wrongState ∧ owner = none) ∨
      ((s.take m).eligible m c.cls ∧ c.state = .waiting ∧ channelIn m ch.toNat = false ∧ r = .badValue ∧
        owner = none) ∨
      ((s.take m).eligible m c.cls ∧ c.state = .waiting ∧ channelIn m ch.toNat = true ∧
        ((s.take m).channelOf m ch.toNat).isSome ∧ r = .channelBusy ∧ owner = none) →
      ∃ t, exec (.answer m tag [num, ch]) s = .next t ∧ CallsStand (s.take m) t ∧
        CallEvent [] (onlyFor m [.refused tag r owner]) (s.take m) t) ∧
    (∀ d, (s.take m).eligible m c.cls → c.state = .waiting → channelIn m ch.toNat = true →
      (s.take m).channelOf m ch.toNat = none → ((s.take m).post c.pos).serving = some d →
      (∀ k, 1 ≤ k → k ≤ 6 → ((s.take m).slotOf d k).isSome) →
      ∃ t, exec (.answer m tag [num, ch]) s = .next t ∧
        t.cm = { (s.take m).cm with change := wrap255 (s.take m).cm.change } ∧ VoiceStands (s.take m) t ∧
        SignallingStands (s.take m) t ∧
        CallEvent [.queue] (fun k => onlyFor m [.refused tag .noSlot none] k ++
          forThose c.offer.get (updateMsg (s.take m) c (.noSlot d)) k) (s.take m) t)

/-- An ANSWER that passes every check connects the call on the lowest free slot of the serving chain and the named
channel: the record is CONNECTED with the requester as owner, CONNECT (slot) is placed for the post, DONE names
number, chain and slot, and every other master offered the call receives CALL_WITHDRAWN with reason ANSWERED (R101,
R120). The one advance of the change number is the model's reading (log entry 9). -/
def Obligations.AnswerConnectsTheCall : Prop :=
  ∀ (s : State) (m : Master) (tag num ch : Byte) (c : Call) (d : Chain) (slot : Nat), s.ready m →
    (s.take m).callOf num.toNat = some c → c.state = .waiting → (s.take m).eligible m c.cls = true →
    channelIn m ch.toNat = true → (s.take m).channelOf m ch.toNat = none →
    ((s.take m).post c.pos).serving = some d → 1 ≤ slot → slot ≤ 6 → (s.take m).slotOf d slot = none →
    (∀ k, 1 ≤ k → k < slot → ((s.take m).slotOf d k).isSome) →
    ∃ t, exec (.answer m tag [num, ch]) s = .next t ∧
      t.callOf num.toNat = some { c with
        state := .connected, timer := s.time, owner := some m, slot := some (d, slot), channel := some ch.toNat
        offer := ⟨false, false, false⟩, pref := none, reminderBase := none, stage := none, toneTimer := none
        flags := { c.flags with
          escalated := false, rescued := false, reconnected := false, overflow := false, transferred := false
          everConnected := true } } ∧
      OtherCallsStand num.toNat (s.take m) t ∧ VoiceJoined num.toNat d slot m ch.toNat (s.take m) t ∧
      Signals c.pos (.connect slot) (s.take m) t ∧
      CallEvent [.queue] (fun k => if k = m then [.done tag (.answered num.toNat d slot)]
        else if c.offer.get k then [.callWithdrawn num.toNat (.answered m)] else []) (s.take m) t

/-- HOLD of a CONNECTED call by its owner: the record is HELD, its slot and channel are free, TONE HOLD is placed
for the post, and the response is DONE. RETRIEVE of a HELD call by its owner that passes every check: the record is
CONNECTED on the lowest free slot of the serving chain and the named channel, CONNECT (slot) is placed, and DONE
names chain and slot (R72, R104 to R106, R120). The last owner and the one advance of the change number are the
model's reading (log entries 9, 34). -/
def Obligations.HoldAndRetrieveMoveTheVoicePath : Prop :=
  (∀ (s : State) (m : Master) (tag num : Byte) (c : Call), s.ready m →
    (s.take m).callOf num.toNat = some c → c.state = .connected → (c.owner = none ∨ c.owner = some m) →
    ∃ t, exec (.hold m tag [num]) s = .next t ∧
      t.callOf num.toNat = some { c with
        state := .held, timer := s.time, offer := ⟨false, false, false⟩, pref := none, slot := none
        channel := none, lastOwner := c.owner.or c.lastOwner, reminderBase := some s.time, stage := none
        toneTimer := none
        flags := { c.flags with
          escalated := false, rescued := false, reconnected := false, overflow := false
          transferred := false } } ∧
      OtherCallsStand num.toNat (s.take m) t ∧ VoiceFreed num.toNat (s.take m) t ∧
      Signals c.pos (.tone .hold) (s.take m) t ∧ CallEvent [.queue] (onlyFor m [.done tag .empty]) (s.take m) t) ∧
  ∀ (s : State) (m : Master) (tag num ch : Byte) (c : Call) (d : Chain) (slot : Nat), s.ready m →
    (s.take m).callOf num.toNat = some c → c.state = .held → (c.owner = none ∨ c.owner = some m) →
    channelIn m ch.toNat = true → (s.take m).channelOf m ch.toNat = none →
    ((s.take m).post c.pos).serving = some d → 1 ≤ slot → slot ≤ 6 → (s.take m).slotOf d slot = none →
    (∀ k, 1 ≤ k → k < slot → ((s.take m).slotOf d k).isSome) →
    ∃ t, exec (.retrieve m tag [num, ch]) s = .next t ∧
      t.callOf num.toNat = some { c with
        state := .connected, timer := s.time, owner := some m, slot := some (d, slot), channel := some ch.toNat
        offer := ⟨false, false, false⟩, pref := none, lastOwner := c.owner.or c.lastOwner, reminderBase := none
        stage := none, toneTimer := none
        flags := { c.flags with
          escalated := false, rescued := false, reconnected := false, overflow := false, transferred := false
          everConnected := true } } ∧
      OtherCallsStand num.toNat (s.take m) t ∧ VoiceJoined num.toNat d slot m ch.toNat (s.take m) t ∧
      Signals c.pos (.connect slot) (s.take m) t ∧
      CallEvent [.queue] (onlyFor m [.done tag (.slot d slot)]) (s.take m) t

/-- TRANSFER of a CONNECTED or HELD call by its owner to another UP and eligible master: the record is WAITING,
transferred, with the target as preference and sole offer, its voice path is free, TONE REGISTERED is placed, and the
target receives CALL_OFFER (R81, R84, R107, R108). The one advance of the change number is the model's reading (log
entry 9). -/
def Obligations.TransferOffersToTheTarget : Prop :=
  ∀ (s : State) (m : Master) (tag num code : Byte) (target : Master) (c : Call), s.ready m →
    (s.take m).callOf num.toNat = some c → (c.state = .connected ∨ c.state = .held) →
    (c.owner = none ∨ c.owner = some m) → masterOfCode code.toNat = some target → target ≠ m →
    ((s.take m).lifOf target).link = .up → (s.take m).eligible target c.cls = true →
    ∃ t x, exec (.transfer m tag [num, code]) s = .next t ∧
      x = { c with
        state := .waiting, timer := s.time, owner := none, slot := none, channel := none
        lastOwner := c.owner.or c.lastOwner, pref := some (.target target), offer := PerMaster.ofFn (· == target)
        reminderBase := none, stage := none, toneTimer := none
        flags := { c.flags with
          escalated := false, rescued := false, reconnected := false, overflow := false, transferred := true } } ∧
      t.callOf num.toNat = some x ∧ OtherCallsStand num.toNat (s.take m) t ∧ VoiceFreed num.toNat (s.take m) t ∧
      Signals c.pos (.tone .registered) (s.take m) t ∧
      CallEvent [.queue] (fun k => if k = m then [.done tag .empty]
        else if k = target then [(s.take m).offerMsg x] else []) (s.take m) t

/-- CLEAR of a CONNECTED, HELD or ALERTING call by its owner, or of a WAITING call by CL-A or CL-B: the record is
CLEARING, in stage TONE with TONE CLEARED placed while the handset is off and in stage RELEASE with DISCONNECT placed
otherwise; its voice path is free and a former offer set receives CALL_WITHDRAWN (R109, R110). The last owner and the
one advance of the change number are the model's reading (log entries 9, 34). -/
def Obligations.ClearBeginsTheRelease : Prop :=
  ∀ (s : State) (m : Master) (tag num : Byte) (c : Call), s.ready m → (s.take m).callOf num.toNat = some c →
    (c.state = .waiting ∧ m ≠ .mp) ∨
      (c.state ∈ [.connected, .held, .alerting] ∧ (c.owner = none ∨ c.owner = some m)) →
    ∃ t, exec (.clear m tag [num]) s = .next t ∧
      t.callOf num.toNat = some { c with
        state := .clearing, timer := s.time, offer := ⟨false, false, false⟩, pref := none, slot := none
        channel := none, lastOwner := if c.state = .waiting then c.lastOwner else c.owner.or c.lastOwner
        reminderBase := none, stage := some (if c.hookOff then .tone else .release), toneTimer := none
        flags := { c.flags with
          escalated := false, rescued := false, reconnected := false, overflow := false
          transferred := false } } ∧
      OtherCallsStand num.toNat (s.take m) t ∧ VoiceFreed num.toNat (s.take m) t ∧
      Signals c.pos (if c.hookOff then .tone .cleared else .disconnect) (s.take m) t ∧
      CallEvent [.queue] (fun k => onlyFor m [.done tag .empty] k ++
        forThose c.offer.get (.callWithdrawn num.toNat .notOffered) k) (s.take m) t

/-- A CALLOUT that passes every check creates a record with the allocator's number, last in rank: ALERTING with RING
placed, or CONNECTED with CONNECT (slot) placed when the post's handset is off; it holds the lowest free slot and the
named channel, and DONE names number, chain and slot (R112, R113, R120). The one advance of the change number is the
model's reading (log entry 9). -/
def Obligations.CalloutRingsThePost : Prop :=
  ∀ (s : State) (m : Master) (tag p ch : Byte) (d : Chain) (slot : Nat), s.ready m → validPos p.toNat = true →
    channelIn m ch.toNat = true → ((s.take m).post p.toNat).serving = some d → (s.take m).callAt p.toNat = none →
    (s.take m).markOf p.toNat = none → (s.take m).channelOf m ch.toNat = none → 1 ≤ slot → slot ≤ 6 →
    (s.take m).slotOf d slot = none → (∀ k, 1 ≤ k → k < slot → ((s.take m).slotOf d k).isSome) →
    ∃ t, exec (.callout m tag [p, ch]) s = .next t ∧
      (let u := s.take m
       let x := u.post p.toNat
       let off := x.lastWord.any (·.hookOff)
       t.cm = { u.cm with
         lastNumber := u.nextNumber, change := wrap255 u.cm.change
         queue := insertCall
           { number := u.nextNumber, cls := .callout, pos := p.toNat, serial := x.serial.getD 0
             state := if off then .connected else .alerting, arrival := s.time, timer := s.time, hookOff := off
             offer := ⟨false, false, false⟩, owner := some m, lastOwner := none, pref := none
             slot := some (d, slot), channel := some ch.toNat
             snapshot := { version := u.cs.version, record := u.entry p.toNat }
             condition := u.conditionOf p.toNat
             flags := { degraded := x.state == .quarantined, everConnected := off }
             stage := none, toneTimer := none, reminderBase := none, resumed := false } u.cm.queue } ∧
       VoiceJoined u.nextNumber d slot m ch.toNat u t ∧
       Signals p.toNat (if off then .connect slot else .ring) u t ∧
       CallEvent [.queue] (onlyFor m [.done tag (.answered u.nextNumber d slot)]) u t)

/-- CLOSE of a SEVERED call by CL-A or CL-B answers DONE and ends it CLOSED, and nothing is placed for the post; a
TEST record that has waited 60 000 ms ends TEST_EXPIRED, with DISCONNECT and the release mark for a served post; an
ALERTING record that has rung for the call-out limit ends NO_ANSWER, with STOP_RING. An ending sets QUEUE, ABANDONED
with an entry, and COUNTERS when the entry makes the oldest give way (R87 to R89, R92, R94, R95, R115). The one
advance of the change number is the model's reading (log entry 9). -/
def Obligations.CallsEndByCloseAndByTime : Prop :=
  (∀ (s : State) (m : Master) (tag num : Byte) (c : Call), s.ready m → m ≠ .mp →
    (s.take m).callOf num.toNat = some c → c.state = .severed →
    ∃ t, exec (.close m tag [num]) s = .next t ∧ CallEnds c .closed (s.take m) t ∧ SignallingStands (s.take m) t ∧
      t.cm.marks = (s.take m).cm.marks ∧
      CallEvent (endFlags c .closed (s.take m))
        (fun k => onlyFor m [.done tag .empty] k ++ endMsgs c .closed (s.take m) k) (s.take m) t) ∧
  ∀ (s : State) (num : Nat) (c : Call), s.callOf num = some c →
    (c.state = .waiting → c.cls = .test → c.timer + 60000 ≤ s.time → ∃ t, exec (.testExpired num) s = .next t ∧
      CallEnds c .testExpired s t ∧ Released c s t ∧
      CallEvent (endFlags c .testExpired s) (endMsgs c .testExpired s) s t) ∧
    (c.state = .alerting → c.timer + s.cs.settings.calloutLimit * 1000 ≤ s.time →
      ∃ t, exec (.calloutLimitExpiry num) s = .next t ∧ CallEnds c .noAnswer s t ∧ Signals c.pos .stopRing s t ∧
        t.cm.marks = s.cm.marks ∧ CallEvent (endFlags c .noAnswer s) (endMsgs c .noAnswer s) s t)

/-- ACK_ABANDONED of CL-A or CL-B for a number of the list answers DONE, removes the entry, sets ABANDONED for all
masters and changes nothing else; for another number it is refused NO_SUCH_CALL. From MP it is refused NOT_PERMITTED,
and malformed it is refused BAD_VALUE (R96). -/
def Obligations.AckRemovesTheAbandonedEntry : Prop :=
  (∀ (s : State) (tag : Byte) (body : List Byte), s.ready .mp →
    Refuses .mp { kind := 11, tag := tag, body := body } .notPermitted s) ∧
  (∀ (s : State) (m : Master) (tag : Byte) (body : List Byte), s.ready m → m ≠ .mp → body.length ≠ 1 →
    Refuses m { kind := 11, tag := tag, body := body } .badValue s) ∧
  ∀ (s : State) (m : Master) (tag num : Byte), s.ready m → m ≠ .mp →
    ((s.take m).cm.abandoned.any (·.number == num.toNat) = true → ∃ t, exec (.ackAbandoned m tag [num]) s = .next t ∧
      t.cm = { (s.take m).cm with
        abandoned := (s.take m).cm.abandoned.filter (·.number != num.toNat) } ∧
      Tells [.abandoned] (onlyFor m [.done tag .empty]) (s.take m) t ∧
      { t with cm := (s.take m).cm, lif := (s.take m).lif } = s.take m) ∧
    ((s.take m).cm.abandoned.any (·.number == num.toNat) = false →
      ∃ t, exec (.ackAbandoned m tag [num]) s = .next t ∧
        OnlyQueues m (.refused tag .noSuchCall none) (s.take m) t)

/-- An EMERGENCY or SERVICE record that has waited the escalation time escalates: the flag is set, a TARGET preference
ends, the offer set becomes every UP eligible master unless a LAST_OWNER preference runs, masters that enter it
receive CALL_OFFER and those that stay CALL_UPDATE with cause ESCALATED (R81, R83, R84, R86). The one advance of the
change number is the model's reading (log entry 9). -/
def Obligations.EscalationWidensTheOffer : Prop :=
  ∀ (s : State) (num : Nat) (c : Call), s.callOf num = some c → c.state = .waiting →
    (c.cls = .emergency ∨ c.cls = .service) → c.flags.escalated = false → s.cs.settings.escalationTime ≠ 0 →
    c.timer + s.cs.settings.escalationTime * 1000 ≤ s.time → ∃ t x, exec (.escalation num) s = .next t ∧
      x = (let pref := c.pref.filter fun y => match y with
             | .target _ => false
             | .lastOwner k _ => s.inE c.cls k
           { c with
             pref := pref
             offer := match pref with
               | some y => PerMaster.ofFn (· == y.master)
               | none => PerMaster.ofFn (s.inE c.cls)
             flags := { c.flags with escalated := true, overflow := false } }) ∧
      t.callOf num = some x ∧ OtherCallsStand num s t ∧ VoiceStands s t ∧ ToneFollows c.offer x s t ∧
      CallEvent [.queue] (fun k => offerChange s c.offer x k ++
        forThose (fun j => c.offer.get j && x.offer.get j) (updateMsg s x .escalated) k) s t

/-- A LAST_OWNER preference that has reached its end time ends: the offer set is computed without it, with its
notices and tone. A HELD record that has reached its reminder sends CALL_UPDATE with cause REMINDER to its owner and
counts anew. The cleared-tone timer of a CLEARING record moves it to stage RELEASE and places DISCONNECT. Each sets
QUEUE, the end of the timer by the model's choice (log entry 59), and nothing else changes (R69, R82 to R84, R105,
R110). The one advance of the change number is the model's reading (log entry 9). -/
def Obligations.CallTimersRunOut : Prop :=
  (∀ (s : State) (num : Nat) (c : Call) (k : Master) (at_ : Nat), s.callOf num = some c → c.state = .waiting →
    c.pref = some (.lastOwner k at_) → at_ ≤ s.time → ∃ t x, exec (.preferenceEnd num) s = .next t ∧
      x = { c with
        pref := none, offer := (s.offersFor { c with pref := none }).1
        flags := { c.flags with overflow := (s.offersFor { c with pref := none }).2 } } ∧
      t.callOf num = some x ∧ OtherCallsStand num s t ∧ VoiceStands s t ∧ ToneFollows c.offer x s t ∧
      PlainCallEvent [.queue] (offerChange s c.offer x) s t) ∧
  ∀ (s : State) (num base : Nat) (c : Call), s.callOf num = some c →
    (c.state = .held → c.reminderBase = some base → base + s.cs.settings.holdReminder * 1000 ≤ s.time →
      ∃ t, exec (.holdReminder num) s = .next t ∧
        t.callOf num = some { c with reminderBase := some s.time } ∧ OtherCallsStand num s t ∧ VoiceStands s t ∧
        SignallingStands s t ∧
        PlainCallEvent [.queue] (forThose (fun k => c.owner == some k) (updateMsg s c .reminder)) s t) ∧
    (c.state = .clearing → c.stage = some .tone → c.toneTimer = some base → base ≤ s.time →
      ∃ t, exec (.clearedToneExpiry num) s = .next t ∧
        t.callOf num = some { c with stage := some .release, toneTimer := none } ∧ OtherCallsStand num s t ∧
        VoiceStands s t ∧ Signals c.pos .disconnect s t ∧ PlainCallEvent [.queue] silent s t)

/-- A word that is a post's first or that differs in hook or request from the last one goes to the call manager, and
no other does. At a position without a record and without release mark a request creates one: numbered, placed by
its class, WAITING with its offer set, CALL_OFFER to its masters and the tone placed; with a mark, or without a
request, nothing changes. A SERVICE or TEST record takes a request of higher rank: it is placed anew with the class,
CALL_UPDATE with cause UPGRADED goes to its owner and offer set, the offer set is computed with its notices, and a
record that has waited long enough escalates; a word that changes the hook as well does all this first and then what
a word of its hook alone does to the upgraded record. The first word after a resumption with no request ends the
record CALLER_GONE, with nothing placed for the post (R5, R70, R73 to R76, R78, R83 to R86, R88, R89, R91). That it
ends a record answered meanwhile is the model's choice (log entry 41); that it does so before the hook is looked at,
and the one advance of the change number, are its reading (log entries 23, 9). -/
def Obligations.WordsRegisterAndUpgradeCalls : Prop :=
  (∀ (s : State) (p : Nat) (w : StatusWord),
    ¬ ((s.post p).releaseMark = true ∧ (s.post p).state = .quarantined ∧ (s.post p).score < 128) →
    s.takeWord p w =
      (let v := s.modPost p fun x =>
        { x with silence := 0, lastWord := some w, firstNext := false, releaseMark := false }
       if (s.post p).firstNext = true ∨
          (s.post p).lastWord.map (fun x => (x.hookOff, x.request)) ≠ some (w.hookOff, w.request) then v.callWord p w
       else v)) ∧
  (∀ (s : State) (p : Nat) (w : StatusWord), s.callAt p = none →
    (w.request = .idle ∨ (s.markOf p).isSome → s.callWord p w = s) ∧
    (∀ k, s.callsSound = true → w.request.class? = some k → s.markOf p = none →
      (let c : Call :=
        { number := s.nextNumber, cls := k, pos := p, serial := (s.post p).serial.getD 0, state := .waiting
          arrival := s.time, timer := s.time, hookOff := w.hookOff, offer := ⟨false, false, false⟩, owner := none
          lastOwner := none, pref := none, slot := none, channel := none
          snapshot := { version := s.cs.version, record := s.entry p }, condition := s.conditionOf p
          flags := { degraded := (s.post p).state == .quarantined }, stage := none, toneTimer := none
          reminderBase := none, resumed := false }
       let x := s.reoffered c
       let t := s.callWord p w
       t.cm = { s.cm with
         lastNumber := s.nextNumber, change := wrap255 s.cm.change, queue := insertCall x s.cm.queue } ∧
        VoiceStands s t ∧ Signals p (toneFor x.offer) s t ∧ PlainCallEvent [.queue] (offerChange s c.offer x) s t))) ∧
  ∀ (s : State) (p : Nat) (w : StatusWord) (c : Call), s.callsSound = true → s.callAt p = some c →
    (c.resumed = true → w.request = .idle →
      CallEnds c .callerGone s (s.callWord p w) ∧ SignallingStands s (s.callWord p w) ∧
        (s.callWord p w).cm.marks = s.cm.marks ∧
        PlainCallEvent (endFlags c .callerGone s) (endMsgs c .callerGone s) s (s.callWord p w)) ∧
    (∀ k, w.request.class? = some k → c.cls = .service ∨ c.cls = .test → k.code < c.cls.code →
      w.hookOff = c.hookOff →
      (let y := { c with cls := k, resumed := false }
       let x := s.reoffered y
       let t := s.callWord p w
       (s.escalates x = true → ∃ z, t.callOf c.number = some z ∧ z.cls = k ∧ z.flags.escalated = true) ∧
        (s.escalates x = false →
          t.cm = { s.cm with
            change := wrap255 s.cm.change
            queue := insertCall x (s.cm.queue.filter fun z => z.number != c.number) } ∧
          VoiceStands s t ∧ ToneFollows c.offer x s t ∧
          PlainCallEvent [.queue]
            (fun k => forThose c.heard (updateMsg s y .upgraded) k ++ offerChange s c.offer x k) s t))) ∧
    (∀ k, w.request.class? = some k → c.cls = .service ∨ c.cls = .test → k.code < c.cls.code →
      w.hookOff ≠ c.hookOff →
      (let u := s.callWord p { w with hookOff := c.hookOff }
       (∃ z, u.callAt p = some z ∧ z.number = c.number ∧ z.cls = k ∧ z.state = c.state ∧ z.hookOff = c.hookOff) ∧
        u.callsSound = true ∧ s.callWord p w = u.callWord p { w with request := .idle }))

/-- The hook of a word that is no upgrade and no end after a resumption. Hook ON ends a WAITING record CALLER_GONE
and a CONNECTED or HELD one CALLER_CLEARED, each with DISCONNECT and the release mark for a served post, and moves a
CLEARING one from stage TONE to RELEASE with DISCONNECT placed; hook OFF connects an ALERTING record, with CONNECT
of its slot; any other change of the hook is taken down alone, and an equal hook is no event. The ACK of DISCONNECT
clears the release mark and ends a CLEARING record in stage RELEASE, and that of TONE CLEARED starts the
cleared-tone timer; no other ACK changes anything, of TONE CLEARED with the timer running by the model's choice (log
entry 53); that the start of the timer sets QUEUE is its choice too (log entry 59) (R37, R72, R74, R88, R89, R110,
R114, R116, R117). The last owner and the one advance of the change number are the model's reading (log entries 9,
34). -/
def Obligations.HooksAndAcksMoveCalls : Prop :=
  (∀ (s : State) (p : Nat) (w : StatusWord) (c : Call), s.callsSound = true → s.callAt p = some c →
    ¬ (c.resumed = true ∧ w.request = .idle) →
    (∀ k, w.request.class? = some k → c.cls = .service ∨ c.cls = .test → c.cls.code ≤ k.code) →
    let t := s.callWord p w
    let y := { c with resumed := false, hookOff := w.hookOff }
    let moved := fun (x : Call) => t.callOf c.number = some x ∧ OtherCallsStand c.number s t ∧ VoiceStands s t ∧
      PlainCallEvent [.queue] silent s t
    (w.hookOff = c.hookOff → t = s.modCall c.number fun x => { x with resumed := false }) ∧
    (w.hookOff ≠ c.hookOff → w.hookOff = false →
      (c.state = .waiting → CallEnds c .callerGone s t ∧ Released c s t ∧
        PlainCallEvent (endFlags c .callerGone s) (endMsgs c .callerGone s) s t) ∧
      (c.state = .connected ∨ c.state = .held → CallEnds c .callerCleared s t ∧ Released c s t ∧
        PlainCallEvent (endFlags c .callerCleared s) (endMsgs c .callerCleared s) s t) ∧
      (c.state = .clearing → c.stage = some .tone →
        moved { y with stage := some .release, toneTimer := none } ∧ Signals c.pos .disconnect s t) ∧
      (c.state = .clearing → c.stage ≠ some .tone → moved y ∧ SignallingStands s t)) ∧
    (w.hookOff ≠ c.hookOff → w.hookOff = true →
      (c.state = .alerting → moved { y with
          state := .connected, timer := s.time, offer := ⟨false, false, false⟩, pref := none
          lastOwner := c.owner.or c.lastOwner, reminderBase := none, stage := none, toneTimer := none
          flags := { c.flags with
            escalated := false, rescued := false, reconnected := false, overflow := false, transferred := false
            everConnected := true } } ∧
        (∀ d slot, c.slot = some (d, slot) → Signals c.pos (.connect slot) s t)) ∧
      (c.state ≠ .alerting → moved y ∧ SignallingStands s t))) ∧
  ∀ (s : State) (p : Nat) (msg : Signal), s.callsSound = true →
    (∀ c, s.callAt p = some c →
      (msg = .disconnect → c.state = .clearing → c.stage = some .release →
        let v := s.setMark p none
        CallEnds c .clearedByControl v (s.callAck p msg) ∧ SignallingStands s (s.callAck p msg) ∧
          (s.callAck p msg).cm.marks = v.cm.marks ∧
          PlainCallEvent (endFlags c .clearedByControl s) (endMsgs c .clearedByControl s) s (s.callAck p msg)) ∧
      (msg = .tone .cleared → c.state = .clearing → c.stage = some .tone → c.toneTimer = none →
        (s.callAck p msg).callOf c.number = some { c with toneTimer := some (s.time + 3000) } ∧
          OtherCallsStand c.number s (s.callAck p msg) ∧ VoiceStands s (s.callAck p msg) ∧
          SignallingStands s (s.callAck p msg) ∧ PlainCallEvent [.queue] silent s (s.callAck p msg))) ∧
    (msg = .disconnect → (∀ c, s.callAt p = some c → ¬ (c.state = .clearing ∧ c.stage = some .release)) →
      s.callAck p msg = s.setMark p none) ∧
    (msg ≠ .disconnect → (msg = .tone .cleared → ∀ c, s.callAt p = some c →
        ¬ (c.state = .clearing ∧ c.stage = some .tone ∧ c.toneTimer = none)) → s.callAck p msg = s)

/-! ### Configuration requests -/

/-- WRITE_ENTRY with a valid entry that keeps the order of R53, and ERASE_ENTRY, by CL-A or CL-B with no SAVE in
flight: the entry and the version change, DONE carries the new version, the identity status is computed anew, the
live record at the position takes the new snapshot, is renamed and reported, and DIRECTORY is set for all masters,
POSTS with a new identity status and QUEUE with a record; nothing else changes (R54, R55, R57 to R60, R65, R69, R85,
R195). -/
def Obligations.DirectoryChangesTakeEffect : Prop :=
  ∀ (s : State) (m : Master) (tag : Byte) (body : List Byte), s.ready m → m ≠ .mp → (s.take m).cs.stage = .idle →
    (s.take m).callsSound = true →
    (∀ p x, entryOperands body = some (p, x) → (s.take m).keepsOrder p x = true →
      ∃ t, exec (.writeEntry m tag body) s = .next t ∧ EntryChanges m tag p (some x) (s.take m) t) ∧
    (∀ p : Byte, body = [p] → 1 ≤ p.toNat → p.toNat ≤ 16 →
      ∃ t, exec (.eraseEntry m tag body) s = .next t ∧ EntryChanges m tag p.toNat none (s.take m) t)

/-- WRITE_SETTING with a valid value, by CL-A or CL-B with no SAVE in flight: the setting holds the value, clamped
where it is numeric, and no other setting, entry or poll entry changes; DONE carries it as stored, and SETTINGS is
set for all masters. A keep-alive window moves the deadline to the last take plus the window, or ends a link whose
deadline it has passed; the call settings act at once on every call that is due by them; the measurement interval
moves a running cycle timer; a filter computes every offer set anew; an event mask whose mark is cleared makes a
STATUS due for a set flag of an UP master; every other setting changes nothing else. A value that is held already
only answers and sets SETTINGS. That a time which is just reached acts in this event is the model's reading (log
entry 28) (R80, R86, R105, R115, R125, R163, R192, R202, R203). -/
def Obligations.SettingsAreStored : Prop :=
  ∀ (s : State) (m : Master) (tag : Byte) (body : List Byte) (n : SettingName) (whose : Option Master)
    (v : SettingValue),
    s.ready m → m ≠ .mp → (s.take m).cs.stage = .idle → settingOperands body = some (n, whose, v) →
    ∃ t, exec (.writeSetting m tag body) s = .next t ∧
      (let u := s.take m
       let k := whose.getD .clA
       let x := u.cs.settings.put n k v
       let w := { u with cs := { u.cs with settings := x } }
       let own := flagIf (rejoins u t = true) EventFlag.line
       let answer := onlyFor m [.done tag (.setting n whose v)]
       t.cs.settings = x ∧ (∀ j, v = .number j → n.clampTo j = j) ∧ Queues m (.done tag (.setting n whose v)) u t ∧
        t.flagged .settings ∧ t.cs.directory = u.cs.directory ∧ t.cs.version = u.cs.version ∧ t.cs.stage = .idle ∧
        t.cs.memory = u.cs.memory ∧ t.sp = u.sp ∧ t.ls.posts = u.ls.posts ∧ t.ls.mode = u.ls.mode ∧ t.ls.n = u.ls.n ∧
        t.time = s.time ∧ t.dev = .running ∧ t.align = u.align ∧ t.mp = s.mp ∧ t.pending = s.pending ∧
        (u.settled = true → n ∉ [.keepAlive, .escalationTime, .calloutLimit, .holdReminder, .measureInterval,
            .offerFilter, .eventMask] →
          Tells ([.settings] ++ own) answer u t ∧ (rejoins u t = false → { t with cs := u.cs, lif := u.lif } = u)) ∧
        (u.settled = true → n = .eventMask →
          Tells ([.settings] ++ own) answer (u.modLif k fun l =>
            { l with statusDue := l.statusDue || (l.link == .up &&
              (u.cs.settings.eventMask.get k &&& ~~~(x.eventMask.get k) &&& l.flags) != 0) }) t ∧
          (rejoins u t = false → { t with cs := u.cs, lif := u.lif } = u)) ∧
        (x = u.cs.settings → u.settled = true → Tells ([.settings] ++ own) answer u t ∧
          (rejoins u t = false → { t with lif := u.lif } = u)) ∧
        (x ≠ u.cs.settings → n = .keepAlive → ∀ at_, (u.lifOf k).link = .up → (u.lifOf k).lastTake = some at_ →
          (s.time < at_ + x.keepAlive.get k → (t.lifOf k).link = .up ∧
            (t.lifOf k).deadline = some (at_ + x.keepAlive.get k)) ∧
          (at_ + x.keepAlive.get k ≤ s.time → (t.lifOf k).link = .down ∧ (t.lifOf k).tx = [])) ∧
        (x ≠ u.cs.settings → u.callsSound = true → ∀ num c, u.callOf num = some c →
          (n = .escalationTime → w.escalates c = true → ∃ y, t.callOf num = some y ∧ y.flags.escalated = true) ∧
          (n = .calloutLimit → w.limitDue c = true → t.callOf num = none) ∧
          (n = .holdReminder → w.reminderDue c = true →
            t.callOf num = some { c with reminderBase := some s.time }) ∧
          (n = .offerFilter → t.callOf num = some (w.reoffered c))) ∧
        (x ≠ u.cs.settings → n = .measureInterval → u.settled = true → rejoins u t = false → ∀ c, u.lm.cycle = some c →
          (s.time < c.start + x.measureInterval * 1000 →
            t.lm.cycle = some { c with expiry := c.start + x.measureInterval * 1000 }) ∧
          (c.start + x.measureInterval * 1000 ≤ s.time → ∀ r p, u.lm.round = some r →
            r.inFlight = some p → t.lm = { u.lm with
              fullReq := ⟨u.lm.fullReq.fwd || u.running .fwd, u.lm.fullReq.ret || u.running .ret⟩
              cycle := some
                { start := c.start + x.measureInterval * 1000
                  expiry := c.start + 2 * (x.measureInterval * 1000) } })))

/-! ### Supervision and measurement -/

/-- WRITE_POLL with no SAVE in flight: the entry holds the new fields, DONE carries them, the entry's alerts leave the
table, its pairs are formed anew, CLEAR, a reading in flight for it is void, SETTINGS is set for all masters, and
the pairs and alerts of other entries stand (R141, R142). -/
def Obligations.PollEntriesAreReplaced : Prop :=
  ∀ (s : State) (m : Master) (tag : Byte) (body : List Byte) (e : Nat) (x : PollEntry), s.ready m →
    (s.take m).cs.stage = .idle → pollOperands body = some (e, x) →
    ∃ t, exec (.writePoll m tag body) s = .next t ∧
      t.sp.table = put1 (s.take m).sp.table (e + 1) x ∧ Queues m (.done tag (.poll x)) (s.take m) t ∧
      t.sp.alerts = (s.take m).sp.alerts.filter (·.entry != e) ∧
      t.sp.pairs.map (fun y => (y.entry, y.pos, y.asserted)) =
        ((s.take m).sp.pairs.filter (·.entry != e)).map (fun y => (y.entry, y.pos, y.asserted)) ++
          (if x.enabled then (match x.target with
            | none => positions
            | some p => [p]).map (fun p => (e, p, false)) else []) ∧
      (∀ d y, (s.take m).sp.inflight.get d = some y →
        t.sp.inflight.get d = some { y with void := y.void || y.entry == e }) ∧
      t.flagged .settings ∧ t.cs = (s.take m).cs ∧ t.lm = (s.take m).lm ∧ t.vx = (s.take m).vx ∧
      t.ls.posts = (s.take m).ls.posts ∧ SignallingStands (s.take m) t ∧ t.time = s.time ∧ t.dev = .running ∧
      t.align = (s.take m).align ∧ t.mp = s.mp ∧ t.pending = s.pending

/-- A clean, not void reading of a pair in RUNNING. A saturated reading of sensor 0 or 1 leaves the assertion state;
a CLEAR pair whose limit the value crosses becomes ASSERTED and raises an alert at the tail, ALERTS set, the change
number advanced and ALERT_REPORT sent, and the condition of its position follows, with CALL_UPDATE for a live record
whose condition changes; in a full table the oldest alert of the lowest severity gives way to a higher one, and else
the new one is dropped, the drop counter advancing; an ASSERTED pair that the value clears loses its alert with its
report, and one that stays ASSERTED takes the value as its alert's last, its stale mark cleared; a CLEAR pair that
stays CLEAR changes nothing. A clean reading of sensor 0 or 1 is kept as the latest value, usable when its chain
serves the post. A reading of SP that ends frees its chain: one that is not void is judged when it ends with a value,
and its pair is due one interval after the end, judged or failed; a void or withdrawn one leaves the pairs as they are.
That an eviction advances the change number twice and a drop not at all is the model's reading (log
entry 10), that DROPPED carries the drop counter after its own advance (log entry 64) and ALERT_REPORT comes before
CALL_UPDATE (log entry 65) are its choices, and that a value of a post moved by CLAIM meanwhile is not usable is its
choice (log entry 56) (R147 to R154, R156, R159). -/
def Obligations.ReadingsAreJudged : Prop :=
  (∀ (s : State) (e p sensor v : Nat) (x : Pair), s.dev = .running → s.alertsSound = true → s.callsSound = true →
    s.pairOf e p = some x →
    let entry := s.pollEntry e
    let asserts := match entry.mode with
      | .matching => Nat.land v entry.mask = entry.compare
      | .above => entry.compare < v
      | .below => v < entry.compare
    let clears := match entry.mode with
      | .matching => Nat.land v entry.mask ≠ entry.compare
      | .above => v + entry.hysteresis ≤ entry.compare
      | .below => entry.compare + entry.hysteresis ≤ v
    let saturated := (sensor = 0 ∨ sensor = 1) ∧ v = 65535
    let t := s.judge e p sensor v
    let asserted := fun (b : Bool) => s.sp.pairs.map fun y =>
      if y.entry = e ∧ y.pos = p then { y with asserted := b } else y
    let condition := (s.callAt p).filter fun c => s.conditionOf p != t.conditionOf p && c.pos == p
    let told := fun (cause : ReportCause) (sev : Severity) (code first : Nat) =>
      Tells ([.alerts] ++ flagIf (condition.isSome = true) .queue) (fun k =>
        [.alertReport
          { cause := cause, entry := e, pos := p, name := s.postName p, severity := sev, code := code, first := first
            value := v, drops := s.sp.drops, change := wrap255 s.sp.change }] ++
        (match condition with
          | some c => forThose c.heard (updateMsg s { c with condition := t.conditionOf p } .condition) k
          | none => [])) s t ∧
      t.cm = { s.cm with
        queue := s.cm.queue.map fun c =>
          if c.pos = p ∧ condition.isSome then { c with condition := t.conditionOf p } else c
        change := if condition.isSome then wrap255 s.cm.change else s.cm.change } ∧
      t.sp.change = wrap255 s.sp.change ∧ t.sp.drops = s.sp.drops
    t.alertsSound = true ∧ { t with sp := s.sp, cm := s.cm, lif := s.lif } = s ∧ t.sp.table = s.sp.table ∧
      t.sp.inflight = s.sp.inflight ∧
      (x.asserted = false → ¬ saturated → ¬ asserts → t = s) ∧
      (x.asserted = false → ¬ saturated → asserts → t.sp.pairs = asserted true ∧
        (let new : Alert := { entry := e, pos := p, severity := entry.severity, code := entry.code, first := s.time
                              last := v, stale := false }
         (s.sp.alerts.length < 48 → t.sp.alerts = s.sp.alerts ++ [new] ∧
          told .asserted entry.severity entry.code s.time) ∧
         (∀ before a later, s.sp.alerts = before ++ a :: later → 48 ≤ s.sp.alerts.length →
          (∀ y, y ∈ before → a.severity.code < y.severity.code) →
          (∀ y, y ∈ later → a.severity.code ≤ y.severity.code) →
          t.sp.drops = advanced s.sp.drops 1 ∧ t.flagged .alerts ∧
            (a.severity.code < entry.severity.code → t.sp.alerts = before ++ later ++ [new] ∧
              t.sp.change = wrap255 (wrap255 s.sp.change)) ∧
            (entry.severity.code ≤ a.severity.code → t.sp.alerts = s.sp.alerts ∧ t.sp.change = s.sp.change ∧
              t.cm = s.cm ∧
              Tells ([.alerts] ++ flagIf (s.sp.drops < 255) .counters) (fun _ => [.alertReport
                { cause := .dropped, entry := e, pos := p, name := s.postName p, severity := entry.severity
                  code := entry.code, first := s.time, value := v, drops := advanced s.sp.drops 1
                  change := s.sp.change }]) s t)))) ∧
      (x.asserted = true → ¬ saturated → clears → t.sp.pairs = asserted false ∧
        t.sp.alerts = s.sp.alerts.filter (fun a => !(a.entry == e && a.pos == p)) ∧
        (∀ a, s.alertOf e p = some a → told .deasserted a.severity a.code a.first) ∧
        (s.alertOf e p = none → t.cm = s.cm ∧ t.lif = s.lif ∧ t.sp.change = s.sp.change)) ∧
      (saturated ∨ (x.asserted = true ∧ ¬ clears) →
        let stale := (s.alertOf e p).any (·.stale)
        t.sp = { s.sp with
          alerts := s.sp.alerts.map fun a => if a.entry = e ∧ a.pos = p then { a with last := v, stale := false } else a
          change := if stale then wrap255 s.sp.change else s.sp.change } ∧
        t.cm = s.cm ∧ Tells (flagIf (stale = true) .alerts) silent s t)) ∧
  (∀ (s : State) (d : Chain) (p v w : Nat), validPos p = true →
    let value := fun (y : Nat) => some
      ({ value := y, time := s.time, chain := d, usable := decide ((s.post p).serving = some d) } : LatestValue)
    s.storeAnswer d (.sense p 0) (some (.value 0 v)) =
      { s with lm := { s.lm with volts := put1 s.lm.volts p (value v) } } ∧
    s.storeAnswer d (.sense p 1) (some (.value 1 v)) =
      { s with lm := { s.lm with amps := put1 s.lm.amps p (value v) } } ∧
    (∀ k, 2 ≤ k → s.storeAnswer d (.sense p k) (some (.value k v)) = s) ∧
    s.storeAnswer d (.line p) (some (.lineValues v w)) = { s with lm := { s.lm with
      volts := put1 s.lm.volts p (value v), amps := put1 s.lm.amps p (value w) } }) ∧
  ∀ (s : State) (d : Chain),
    (s.sp.inflight.get d = none → ∀ v, s.senseClean d v = s ∧ s.senseFailed d = s) ∧
    ∀ x, s.sp.inflight.get d = some x →
      let freed := { s with sp := { s.sp with inflight := s.sp.inflight.set d none } }
      let deferred := fun (u : State) => { u with sp := { u.sp with pairs := u.sp.pairs.map fun y =>
        if y.entry = x.entry ∧ y.pos = x.pos then
          { y with due := s.time + (s.pollEntry x.entry).interval * 1000 } else y } }
      (x.void = false → s.senseFailed d = deferred freed ∧
        ∀ v, s.senseClean d v = deferred (freed.judge x.entry x.pos x.sensor v)) ∧
      (x.void = true → s.senseFailed d = freed ∧ ∀ v, s.senseClean d v = freed) ∧
      ∀ hit y, (s.leOf d).sense = some y →
        s.withdrawSense d hit = if hit y.pos then freed.modLe d fun e => { e with sense := none } else s

/-- MEASURE while a round is in flight stores the mode as the pending one and answers with both; with no round in
flight the mode is entered at once and answered without a pending one: OFF clears all requests and timers, and with
no line end RUNNING and no request set CYCLIC and FOCUSED start the cycle timer, FOCUSED the 5 s focus timer, and
SINGLE neither. No flag is set, and no call, post or setting changes (R160 to R162). The modes of the response are
the model's reading (log entry 30). -/
def Obligations.MeasureEntersTheMode : Prop :=
  ∀ (s : State) (m : Master) (tag code : Byte) (mode : MeasureMode), s.ready m →
    measureModeOf code.toNat = some mode →
    (∀ r, (s.take m).lm.round = some r → ∃ t, exec (.measure m tag [code]) s = .next t ∧
      t.lm = { (s.take m).lm with pendingMode := some mode } ∧
      OnlyQueues m (.done tag (.measure (s.take m).lm.mode (some mode))) (s.take m) { t with lm := (s.take m).lm }) ∧
    ((s.take m).lm.round = none → ∃ t, exec (.measure m tag [code]) s = .next t ∧
      Tells [] (onlyFor m [.done tag (.measure mode none)]) (s.take m) t ∧ CallsStand (s.take m) t ∧
      StandsApart (s.take m) t ∧
      (mode = .off → t.lm = { (s.take m).lm with
        mode := .off, fullReq := ⟨false, false⟩, focusReq := ⟨false, false⟩, cycle := none, focus := none }) ∧
      (mode ≠ .off → (s.take m).running .fwd = false → (s.take m).running .ret = false →
        (s.take m).lm.fullReq = ⟨false, false⟩ → (s.take m).lm.focusReq = ⟨false, false⟩ →
        t.lm = { (s.take m).lm with
          mode := mode
          cycle := if mode = .single then none else some
            { start := s.time, expiry := s.time + (s.take m).cs.settings.measureInterval * 1000 }
          focus := if mode = .focused then some (s.time + 5000) else none }))

/-- The cycle timer sets the full request of each RUNNING chain and starts anew from its expiry time; the focus
timer sets the focused request of each RUNNING chain with a HIGH or LOW span and starts anew; a round in flight that
awaits a read goes on, and nothing else changes; with no round in flight LM takes its next step in the same event,
and of a chain whose full request is next and whose reading place is free a full round starts with the read of its
first readable position. A due pair whose position is not ACTIVE is put off by its interval; of the due pairs of a
chain whose reading place is free the earliest is read; a chain with a reading in flight or a taken place gets none,
and nothing else changes (R145, R146, R163 to R165). -/
def Obligations.PollerAndMonitorTimersAct : Prop :=
  (∀ (s : State) (r : Round) (p : Nat), s.lm.round = some r → r.inFlight = some p → s.settled = true →
    (∀ c, s.lm.cycle = some c → c.expiry ≤ s.time → ∃ t, exec .cycleTimerExpiry s = .next t ∧
      t.lm = { s.lm with
        fullReq := ⟨s.lm.fullReq.fwd || (s.leOf .fwd).state == .running,
          s.lm.fullReq.ret || (s.leOf .ret).state == .running⟩
        cycle := some { start := c.expiry, expiry := c.expiry + s.cs.settings.measureInterval * 1000 } } ∧
      { t with lm := s.lm } = s) ∧
    (∀ x, s.lm.focus = some x → x ≤ s.time → ∃ t, exec .focusTimerExpiry s = .next t ∧
      t.lm = { s.lm with
        focus := some (x + 5000)
        focusReq :=
          ⟨s.lm.focusReq.fwd || ((s.leOf .fwd).state == .running && (s.spansOf .fwd).any fun k =>
              (s.span k).cls == .high || (s.span k).cls == .low),
            s.lm.focusReq.ret || ((s.leOf .ret).state == .running && (s.spansOf .ret).any fun k =>
              (s.span k).cls == .high || (s.span k).cls == .low)⟩ } ∧
      { t with lm := s.lm } = s)) ∧
  (∀ s : State, s.lm.round = none → s.settled = true →
    (∀ c, s.lm.cycle = some c → c.expiry ≤ s.time → ∃ t, exec .cycleTimerExpiry s = .next t ∧
      (let w : State := { s with lm := { s.lm with
        fullReq := ⟨s.lm.fullReq.fwd || (s.leOf .fwd).state == .running,
          s.lm.fullReq.ret || (s.leOf .ret).state == .running⟩
        cycle := some { start := c.expiry, expiry := c.expiry + s.cs.settings.measureInterval * 1000 } } }
       let reads := fun d q => (s.post q).state = .active ∧ (s.post q).serving = some d
       t = w.lmReact.endEvent ∧
        ∀ d before p later, w.nextRequest = some (d, .full) → (s.leOf d).measure = none →
          s.range d = before ++ p :: later → reads d p → (∀ q, q ∈ before → ¬ reads d q) →
          t.lm.round.map (fun r => (r.chain, r.kind, r.number, r.inFlight)) =
            some (d, .full, wrap65535 s.lm.roundNo, some p) ∧ (t.leOf d).measure = some { pos := p } ∧
          t.lm.fullReq.get d = false ∧ t.lm.cycle = w.lm.cycle)) ∧
    (∀ x, s.lm.focus = some x → x ≤ s.time → exec .focusTimerExpiry s = .next
      (({ s with lm := { s.lm with
        focus := some (x + 5000)
        focusReq :=
          ⟨s.lm.focusReq.fwd || ((s.leOf .fwd).state == .running && (s.spansOf .fwd).any fun k =>
              (s.span k).cls == .high || (s.span k).cls == .low),
            s.lm.focusReq.ret || ((s.leOf .ret).state == .running && (s.spansOf .ret).any fun k =>
              (s.span k).cls == .high || (s.span k).cls == .low)⟩ } } : State).lmReact.endEvent))) ∧
  ∀ (s : State) (e p : Nat) (x : Pair), s.pairOf e p = some x → x.due ≤ s.time →
    ∃ t, exec (.pollPairDue e p) s = .next t ∧
      t.sp.pairs = s.sp.pairs.map (fun y =>
        if y.due ≤ s.time ∧ (s.post y.pos).state ≠ .active then
          { y with due := s.time + (s.pollEntry y.entry).interval * 1000 } else y) ∧
      (∀ d y, y ∈ s.sp.pairs → y.due ≤ s.time → (s.post y.pos).state = .active → (s.post y.pos).serving = some d →
        (∀ z, z ∈ s.sp.pairs → z.due ≤ s.time → (s.post z.pos).state = .active → (s.post z.pos).serving = some d →
          z = y ∨ y.before z = true) →
        s.sp.inflight.get d = none → (s.leOf d).sense = none →
        t.sp.inflight.get d = some
          { entry := y.entry, pos := y.pos, sensor := (s.pollEntry y.entry).sensor, void := false } ∧
        (t.leOf d).sense = some { pos := y.pos, sensor := (s.pollEntry y.entry).sensor }) ∧
      (∀ d, s.sp.inflight.get d ≠ none ∨ (s.leOf d).sense ≠ none →
        t.sp.inflight.get d = s.sp.inflight.get d ∧ t.leOf d = s.leOf d) ∧
      (∀ d, { t.leOf d with sense := (s.leOf d).sense } = s.leOf d) ∧
      { t with sp := s.sp, le := s.le } = s ∧ { t.sp with pairs := s.sp.pairs, inflight := s.sp.inflight } = s.sp

/-- LM takes a full request before a focused one, and of two chains the other than the last round's. A full round
starts with the next number, the cabinet's codes, one target for each position of its chain's range in chain order,
WAITING when the chain serves it ACTIVE and SKIPPED otherwise, and the read of the first that waits; after it LM
places the read of the next that waits and can be read. Under paired sampling each target takes the chain's I code as
its read is placed, at the start a free value (log entry 3). A focused
request without a HIGH or LOW span is discarded, and else its targets are the posts at the ends of those spans. A
clean read makes its target READ with the values, and a read that ends otherwise makes it SKIPPED; the spans whose
far end has been read are dealt with. With no target left that waits and can be read, the spans left become INVALID,
SKIPPED, with the chain and number of the round (the model's reading, log entry 19), the round ends, a pending mode
is entered, and SINGLE becomes OFF when no full request remains. A change of the topology that LM is told of aborts
the round, whose request is set again while its line end runs and the mode is not OFF, and then LM looks on (R164 to
R170). -/
def Obligations.RoundsStartReadAndEnd : Prop :=
  (∀ s : State,
    let pick := fun (x : PerChain Bool) (d : Chain) =>
      x.get d = true ∧ (x.get (otherChain d) = true → s.lm.lastChain ≠ d)
    ∀ d, (pick s.lm.fullReq d → s.nextRequest = some (d, .full)) ∧
      (s.lm.fullReq = ⟨false, false⟩ → pick s.lm.focusReq d → s.nextRequest = some (d, .focused)) ∧
      (s.lm.fullReq = ⟨false, false⟩ → s.lm.focusReq = ⟨false, false⟩ → s.nextRequest = none)) ∧
  (∀ (s : State) (d : Chain) (k : RoundKind) (p : Nat), s.ev.topo = false → s.lm.round = none →
    s.nextRequest = some (d, k) → (s.leOf d).measure = none →
    let paired := s.cs.settings.pairedSampling
    let code := (Config.converterCode (s.pins.samples + 1)).toNat
    let reads := fun q => (s.post q).state = .active ∧ (s.post q).serving = some d
    let positions := match k with
      | .full => s.range d
      | .focused => (chainOrder d).filter fun q =>
          (s.selected d).any (fun x => nearEnd d x == q || farEnd d x == q) && !s.isPort d q
    let t := s.lmReact
    (∃ before later, positions = before ++ p :: later ∧ reads p ∧ ∀ q, q ∈ before → ¬ reads q) →
    (k = .focused → s.selected d ≠ []) →
      t.lm = { s.lm with
        fullReq := if k = .full then s.lm.fullReq.set d false else s.lm.fullReq
        focusReq := if k = .focused then s.lm.focusReq.set d false else s.lm.focusReq
        lastChain := d, roundNo := wrap65535 s.lm.roundNo, samples := t.lm.samples
        round := some
          { chain := d, kind := k, number := wrap65535 s.lm.roundNo, paired := paired
            v0 := (s.pins.converter.get (channelV d)).toNat, i0 := (s.pins.converter.get (channelI d)).toNat
            targets := positions.map fun q =>
              { pos := q, mark := if reads q then .waiting else .skipped, volt := 0, cur := 0
                paired := if q = p ∧ paired then some code else none }
            spans := if k = .full then s.spansOf d else s.selected d, inFlight := some p } } ∧
      t.leOf d = { s.leOf d with measure := some { pos := p } } ∧ (∀ e, e ≠ d → t.leOf e = s.leOf e) ∧
      t.lm.samples.get (channelV d) = some ((s.pins.converter.get (channelV d)).toNat, s.time) ∧
      t.lm.samples.get (channelI d) =
        some (if paired then code else (s.pins.converter.get (channelI d)).toNat, s.time) ∧
      t.lm.samples.get .supplyV = some ((s.pins.converter.get .supplyV).toNat, s.time) ∧
      { t with lm := s.lm, le := s.le, pins := s.pins } = s) ∧
  (∀ (s : State) (r : Round) (before later : List Target) (x : Target), s.ev.topo = false → s.lm.round = some r →
    r.inFlight = none → (s.leOf r.chain).measure = none → r.targets = before ++ x :: later →
    (r.targets.map (·.pos)).Nodup →
    let reads := fun (y : Target) =>
      y.mark = .waiting ∧ (s.post y.pos).state = .active ∧ (s.post y.pos).serving = some r.chain
    reads x → (∀ y, y ∈ before → ¬ reads y) →
    let t := s.lmReact
    let code := (s.pins.converter.get (channelI r.chain)).toNat
    t.lm = { s.lm with
      samples := if r.paired then s.lm.samples.set (channelI r.chain) (some (code, s.time)) else s.lm.samples
      round := some { r with
        inFlight := some x.pos
        targets := (before.map fun y => if y.mark = .waiting then { y with mark := .skipped } else y) ++
          { x with paired := if r.paired then some code else x.paired } :: later } } ∧
      t.leOf r.chain = { s.leOf r.chain with measure := some { pos := x.pos } } ∧
      (∀ e, e ≠ r.chain → t.leOf e = s.leOf e) ∧ { t with lm := s.lm, le := s.le, pins := s.pins } = s) ∧
  (∀ (s : State) (d : Chain), s.selected d = [] →
    s.takeRound d .focused = { s with lm := { s.lm with focusReq := s.lm.focusReq.set d false } }) ∧
  (∀ (s : State) (r : Round) (p volt cur : Nat), s.lm.round = some r → r.inFlight = some p →
    let t := s.lineRead r.chain p volt cur
    t.lm.round = some { r with
      inFlight := none, spans := r.spans.filter fun k => farEnd r.chain k != p
      targets := r.targets.map fun x => if x.pos = p then { x with mark := .read, volt := volt, cur := cur } else x } ∧
    (∀ k, (k ∉ r.spans ∨ farEnd r.chain k ≠ p) → t.span k = s.span k) ∧
    (∀ k, k ∈ r.spans → farEnd r.chain k = p → 1 ≤ k → k ≤ 17 →
      (t.span k).chain = some r.chain ∧ (t.span k).round = some r.number) ∧
    t.le = s.le ∧ t.ls.posts = s.ls.posts ∧ t.cm = s.cm ∧ t.sp = s.sp ∧
    s.lineUnread r.chain = { s with lm := { s.lm with round := some { r with
      inFlight := none
      targets := r.targets.map fun x => if x.pos = p then { x with mark := .skipped } else x } } }) ∧
  (∀ (s : State) (r : Round) (k : Nat), s.ev.topo = false → s.lm.round = some r → r.inFlight = none →
    (∀ x, x ∈ r.targets → x.mark = .waiting → (s.post x.pos).state ≠ .active ∨ (s.post x.pos).serving ≠ some r.chain) →
    let t := s.lmReact
    let mode := s.lm.pendingMode.getD s.lm.mode
    t.lm.round ≠ some r ∧ (k ∈ r.spans → 1 ≤ k → k ≤ 17 → s.lm.fullReq = ⟨false, false⟩ →
      s.lm.focusReq = ⟨false, false⟩ → s.lm.pendingMode = none →
      t.span k = { s.span k with invalid := some .skipped, chain := some r.chain, round := some r.number }) ∧
    (s.lm.fullReq = ⟨false, false⟩ → s.lm.focusReq = ⟨false, false⟩ → s.running .fwd = false → s.running .ret = false →
      t.lm.round = none ∧ t.lm.pendingMode = none ∧ t.lm.mode = (if mode = .single then .off else mode))) ∧
  (∀ s : State, s.ev.topo = true → s.lmReact = ({ s.abortRound with ev := { s.ev with topo := false } } : State).lmReact) ∧
  ∀ (s : State) (r : Round), s.lm.round = some r →
    let again := s.lm.mode ≠ .off ∧ s.running r.chain = true
    let t := s.abortRound
    t.lm.round = none ∧ t.lm.pendingMode = none ∧
    (s.lm.pendingMode = none → t.lm = { s.lm with
      round := none, pendingMode := none
      fullReq := if again ∧ r.kind = .full then s.lm.fullReq.set r.chain true else t.lm.fullReq
      focusReq := if again ∧ r.kind = .focused ∧ s.lm.mode ≠ .single then s.lm.focusReq.set r.chain true
        else t.lm.focusReq
      mode := t.lm.mode, cycle := t.lm.cycle, focus := t.lm.focus } ∧
      (s.lm.mode ≠ .single → t.lm.mode = s.lm.mode ∧ t.lm.cycle = s.lm.cycle ∧ t.lm.focus = s.lm.focus ∧
        (¬ again → t.lm.fullReq = s.lm.fullReq ∧ t.lm.focusReq = s.lm.focusReq)) ∧
      (s.lm.mode = .single → s.lm.fullReq = ⟨false, false⟩ → ¬ (again ∧ r.kind = .full) → t.lm.mode = .off)) ∧
    { t with lm := s.lm } = s

/-- A valid span's resistance in tenths of an ohm is (drop × 10000 + current div 2) div current, rounded to the
nearest with halves up, at most 65535; it is written into the entry whatever the rating. A span of invalid inputs
keeps its values and class and is marked INVALID with the reason of the first check that fails: SKIPPED without a
voltage at an end or a consumption before the far end, SATURATED with a code of 4095 or a value of 65535, NO_CURRENT,
NEGATIVE_DROP. A rated span takes
its expected resistance, ratio and thresholds from the directory and the settings, its class from the class before
and the ratio, and its count of abnormal computations from the class; the third makes it suspect, with SPAN_SUSPECT,
until it is NORMAL; an unrated one is never suspect. The leakage of a chain that serves every post is the cabinet's
current less the posts', and LEAKAGE stands while it exceeds its threshold (R170 to R178). -/
def Obligations.SpansAndLeakageAreComputed : Prop :=
  (∀ (s : State) (r : Round) (k : Nat), 1 ≤ k → k ≤ 17 →
    let port := if r.chain = .fwd then 1 else s.ls.n + 1
    let near := if k = port then some (r.v0 * 16) else (r.readTarget (nearEnd r.chain k)).map (·.volt)
    let consumed := allOf ((s.before r.chain k).map (s.consumption r))
    let invalid := fun (reason : InvalidReason) => s.computeSpan r k = s.setSpan k
      { s.span k with invalid := some reason, chain := some r.chain, round := some r.number }
    (r.readTarget (farEnd r.chain k) = none ∨ near = none ∨ consumed = none → invalid .skipped) ∧
    ∀ far volt used, r.readTarget (farEnd r.chain k) = some far → near = some volt → consumed = some used →
      let code := if r.paired then far.paired.getD r.i0 else r.i0
      let tooHigh := r.v0 = 4095 ∨ r.i0 = 4095 ∨ code = 4095 ∨ volt = 65535 ∨ far.volt = 65535 ∨ 65535 ∈ used
      (tooHigh → invalid .saturated) ∧
      (¬ tooHigh → code * 250 ≤ used.sum → invalid .noCurrent) ∧
      (¬ tooHigh → used.sum < code * 250 → volt < far.volt → invalid .negativeDrop) ∧
      (¬ tooHigh → used.sum < code * 250 → far.volt ≤ volt →
      (let j := code * 250 - used.sum
       let v := volt - far.volt
       let old := s.span k
       let t := s.computeSpan r k
       let new := t.span k
       let e := fun (a b : Nat) => min 65535 (((b - a) * s.cs.settings.loopResistance + 500) / 1000)
       let y := s.cs.settings
       let leaveHigh := min y.highLeave (y.highEnter - 1)
       let leaveLow := max y.lowLeave (y.lowEnter + 1)
       new.r = some (min 65535 ((v * 10000 + j / 2) / j)) ∧
        ((v * 10000 + j / 2) / j * j ≤ v * 10000 + j / 2 ∧ v * 10000 + j / 2 < ((v * 10000 + j / 2) / j + 1) * j) ∧
        (volt ≤ 65535 → v * 10000 ≤ 655340000) ∧
        new.chain = some r.chain ∧ new.round = some r.number ∧ new.invalid = none ∧
        ((s.distance r.chain (nearEnd r.chain k) = none ∨ s.distance r.chain (farEnd r.chain k) = none ∨
            (∃ a b, s.distance r.chain (nearEnd r.chain k) = some a ∧ s.distance r.chain (farEnd r.chain k) = some b ∧
              e a b = 0)) →
          new.e = none ∧ new.ratio = none ∧ new.used = none ∧ new.cls = .unrated ∧ new.abnormal = 0 ∧
            new.suspect = false) ∧
        (∀ a b, s.distance r.chain (nearEnd r.chain k) = some a → s.distance r.chain (farEnd r.chain k) = some b →
          e a b ≠ 0 → ∃ res ratio, new.r = some res ∧ ratio = min 999 (res * 100 / e a b) ∧ new.e = some (e a b) ∧
            new.ratio = some ratio ∧
            new.used = some
              { highEnter := y.highEnter, highLeave := leaveHigh, lowEnter := y.lowEnter, lowLeave := leaveLow } ∧
            (old.cls = .high → new.cls =
              if ratio ≤ leaveHigh then (if ratio < y.lowEnter then .low else .normal) else .high) ∧
            (old.cls = .low → new.cls =
              if leaveLow ≤ ratio then (if y.highEnter < ratio then .high else .normal) else .low) ∧
            (old.cls ≠ .high → old.cls ≠ .low → new.cls =
              if y.highEnter < ratio then .high else if ratio < y.lowEnter then .low else .normal) ∧
            (new.cls = .high ∨ new.cls = .low → new.abnormal = min 255 (old.abnormal + 1) ∧
              (new.suspect = true ↔ old.suspect = true ∨ 3 ≤ new.abnormal)) ∧
            (new.cls = .normal → new.abnormal = 0 ∧ new.suspect = false)) ∧
        (t.hasAlert .spanSuspect (.spans k k) = new.suspect) ∧
        (∀ q, q ≠ k → t.span q = s.span q) ∧
        (new.cls ≠ old.cls ∨ new.suspect ≠ old.suspect → t.flagged .line) ∧
        { t with lm := s.lm, ls := s.ls, lif := s.lif, ev := s.ev } = s ∧
        { t.ls with alerts := s.ls.alerts } = s.ls ∧ { t.lm with spans := s.lm.spans, change := s.lm.change } = s.lm))) ∧
  ∀ (s : State) (r : Round),
    let allowed := s.ls.topology = .single ∧ 1 ≤ s.ls.n ∧
      (∀ p, 1 ≤ p → p ≤ s.ls.n → (s.post p).serving = some r.chain) ∧
      (s.ls.mode = .loop → (s.leOf (otherChain r.chain)).state ∈ [.watching, .off, .failed]) ∧
      (∀ x, x ∈ r.targets → x.mark ≠ .skipped ∧ x.cur ≠ 65535) ∧ r.i0 ≠ 4095
    let v := r.i0 * 250 - (r.targets.map (·.cur)).sum
    let t := s.computeLeakage r
    (¬ allowed → t = s) ∧
    (allowed → t.lm.leakage = s.lm.leakage.set r.chain (some { value := v, round := r.number, time := s.time }) ∧
      t.hasAlert .leakage (.chain r.chain) = decide (s.cs.settings.leakageThreshold < v) ∧
      { t.lm with leakage := s.lm.leakage, change := s.lm.change } = s.lm ∧ { t.ls with alerts := s.ls.alerts } = s.ls ∧
      { t with lm := s.lm, ls := s.ls, lif := s.lif, ev := s.ev } = s)

/-! ### Requests on the post line -/

/-- RELEASE_POST by CL-A or CL-B sets the score of a post to 0, marks a QUARANTINED one for release and answers
DONE; a VACANT position is refused NO_POST. POST_READ and POST_WRITE of an item (0 to 23 for a write) of a served
post by a master without an outstanding access place the access with the serving line end and answer ACCEPTED;
nothing else changes (R33, R42, R46). -/
def Obligations.PostRequestsReachTheLine : Prop :=
  ∀ (s : State) (m : Master) (tag p item hi lo : Byte), s.ready m → validPos p.toNat = true →
    (m ≠ .mp → ((s.take m).post p.toNat).state ≠ .vacant → ∃ t, exec (.releasePost m tag [p]) s = .next t ∧
      t.post p.toNat = { (s.take m).post p.toNat with
        score := 0
        releaseMark := ((s.take m).post p.toNat).releaseMark ||
          ((s.take m).post p.toNat).state == .quarantined } ∧
      (∀ q, q ≠ p.toNat → t.post q = (s.take m).post q) ∧ { t.ls with posts := (s.take m).ls.posts } = (s.take m).ls ∧
      OnlyQueues m (.done tag .empty) (s.take m) { t with ls := (s.take m).ls }) ∧
    (m ≠ .mp → ((s.take m).post p.toNat).state = .vacant → ∃ t, exec (.releasePost m tag [p]) s = .next t ∧
      OnlyQueues m (.refused tag .noPost none) (s.take m) t) ∧
    (∀ d, ((s.take m).post p.toNat).serving = some d → ((s.take m).lifOf m).access = none →
      (∀ c write,
        (item.toNat ≤ 31 ∧ c = .postRead m tag [p, item] ∧ write = none) ∨
          (item.toNat ≤ 23 ∧ c = .postWrite m tag [p, item, hi, lo] ∧ write = some (hi.toNat * 256 + lo.toNat)) →
        ∃ t, exec c s = .next t ∧
          t.lifOf m = { (s.take m).lifOf m with
            tx := ((s.take m).lifOf m).tx ++ [⟨.accepted tag, 0⟩]
            access := some { tag := tag, pos := p.toNat, item := item.toNat, write := write, chain := d
                             order := s.placed, clock := none, fails := 0, orphaned := false } } ∧
          (∀ k, k ≠ m → t.lifOf k = (s.take m).lifOf k) ∧ t.placed = s.placed + 1 ∧
          { t with lif := (s.take m).lif, placed := s.placed } = s.take m))

/-- RESTART_LINE by CL-A or CL-B: both line ends go to OFF with their queues emptied and LE-F enters FEEDING with its
250 ms settle timer; every post that is not VACANT becomes LOST with score and clean probes 0 and keeps serial, kind
and last word; its WAITING, CONNECTED or HELD call becomes SEVERED, its CLEARING or ALERTING one ends; break record, REJOIN_PENDING, line alerts, span
table, leakage and alert table are cleared; mode and n follow the settings and the topology is DOWN. DONE is
answered, and the configuration stands (R1, R3, R29, R90, R157). That an active line end's awaited upstream half is
dropped is the model's reading (log entry 25). -/
def Obligations.RestartLineStartsAnew : Prop :=
  ∀ (s : State) (m : Master) (tag : Byte), s.ready m → m ≠ .mp → (s.take m).callsSound = true →
    ∃ t, exec (.restartLine m tag []) s = .next t ∧ Queues m (.done tag .empty) (s.take m) t ∧
      (t.leOf .fwd).state = .feeding ∧ (t.leOf .fwd).settle = some (s.time + 250) ∧ (t.leOf .ret).state = .off ∧
      (∀ d, (t.leOf d).signalling = [] ∧ (t.leOf d).lsMsg = none ∧ (t.leOf d).discovery = none ∧
        (((s.take m).leOf d).state ≠ .off → (t.leOf d).retry = none) ∧
        (((s.take m).leOf d).state = .running → (t.leOf d).refind = none) ∧
        (((s.take m).leOf d).state.active = true → (t.leOf d).sent = none ∧ t.pins.lineOut.get d = [])) ∧
      (∀ k a, (t.lifOf k).access ≠ some a) ∧
      (∀ p, validPos p = true → ((s.take m).post p).state ≠ .vacant →
        (t.post p).state = .lost ∧ (t.post p).serving = none ∧ (t.post p).score = 0 ∧
        (t.post p).cleanProbes = 0 ∧ (t.post p).serial = ((s.take m).post p).serial ∧
        (t.post p).kind = ((s.take m).post p).kind ∧ (t.post p).identity = ((s.take m).post p).identity ∧
        (t.post p).lastWord = ((s.take m).post p).lastWord) ∧
      (∀ p, ((s.take m).post p).state = .vacant → t.post p = (s.take m).post p) ∧
      (∀ p c, ((s.take m).post p).state ∈ [.active, .quarantined] → (s.take m).callAt p = some c →
        c.state ∈ [.waiting, .connected, .held] → ∃ x, t.callOf c.number = some x ∧ x.state = .severed ∧
          x.owner = none ∧ x.slot = none ∧ x.channel = none) ∧
      (∀ p c, ((s.take m).post p).state ∈ [.active, .quarantined] → (s.take m).callAt p = some c →
        c.state ∈ [.clearing, .alerting] → t.callOf c.number = none) ∧
      t.ls.breakRec = none ∧ t.ls.rejoinPending = false ∧ t.ls.alerts = [] ∧ t.ls.topology = .down ∧
      (∀ k, (t.span k).cls = .unmeasured ∧ (t.span k).r = none ∧ (t.span k).abnormal = 0 ∧
        (t.span k).suspect = false) ∧ t.lm.leakage = ⟨none, none⟩ ∧ t.sp.alerts = [] ∧
      (∀ y, y ∈ t.sp.pairs → y.asserted = false) ∧ (∀ p, t.conditionOf p = none) ∧
      t.ls.mode = (if s.cs.settings.lineMode = .loop ∧ s.cs.settings.expectedPosts ≠ 0 then .loop else .openLine) ∧
      t.ls.n = (if s.cs.settings.lineMode = .loop then s.cs.settings.expectedPosts else 0) ∧
      DeviceStands (s.take m) t ∧ t.mp = s.mp

/-- REJOIN by CL-A or CL-B in SPLIT answers DONE and starts the rejoin: the topology is REJOINING, the pending
marker is clear, LINE is set, and with its LS place free LE-F sends CLAIM to position b+1; in any other topology it
is refused WRONG_STATE and nothing changes (R22, R26, R27). That CLAIM waits for a taken LS place is the model's
choice (log entry 11). -/
def Obligations.RejoinClaimsTheNextPost : Prop :=
  ∀ (s : State) (m : Master) (tag : Byte), s.ready m → m ≠ .mp →
    ((s.take m).ls.topology ≠ .split → ∃ t, exec (.rejoin m tag []) s = .next t ∧
      OnlyQueues m (.refused tag .wrongState none) (s.take m) t) ∧
    ((s.take m).ls.topology = .split → ((s.take m).leOf .fwd).state = .running →
      ((s.take m).leOf .ret).state = .running → (s.take m).b < (s.take m).ls.n →
      ∃ t, exec (.rejoin m tag []) s = .next t ∧ t.ls.topology = .rejoining ∧ t.ls.rejoinPending = false ∧
        (t.leOf .fwd).lsMsg = (match ((s.take m).leOf .fwd).lsMsg with
          | none => some { kind := .claim, pos := (s.take m).b + 1 }
          | some x => some x) ∧
        Tells [.line] (onlyFor m [.done tag .empty]) (s.take m) t ∧ CallsStand (s.take m) t ∧
        PostsStand (s.take m) t ∧ DeviceStands (s.take m) t)


/-! ### The post line -/

/-- CM's message for a post that a chain serves takes its place in that line end's FIFO: with no message waiting for
the position it joins the tail with attempt count 0, a waiting DISCONNECT stays and the new message is discarded,
and any other waiting message is replaced in its place with attempt count 0. The FIFO keeps at most one message for
each position and so has room for one of its 16 places (R36). -/
def Obligations.SignallingKeepsOnePerPosition : Prop :=
  ∀ (s : State) (p : Nat) (msg : Signal) (d : Chain), (s.post p).serving = some d →
    (let q := (s.leOf d).signalling
     let q' := ((s.placeSignal p msg).leOf d).signalling
     ((∀ x, x ∈ q → x.pos ≠ p) → q' = q ++ [{ pos := p, msg := msg, attempts := 0 }]) ∧
       ((q.map (·.pos)).Nodup → ∀ before x later, q = before ++ x :: later → x.pos = p →
         (x.msg = .disconnect → q' = q) ∧
         (x.msg ≠ .disconnect → q' = before ++ { pos := p, msg := msg, attempts := 0 } :: later)) ∧
       ((q.map (·.pos)).Nodup → (q'.map (·.pos)).Nodup) ∧
       ((q.map (·.pos)).Nodup → (∀ x, x ∈ q → validPos x.pos = true) → validPos p = true →
         (∀ x, x ∈ q → x.pos ≠ p) → q.length < 16)) ∧
    ∀ e, e ≠ d → (s.placeSignal p msg).leOf e = s.leOf e

/-- The downstream superframe of an active line end that awaits no upstream half carries the arbiter's choice and
the joined voice: in DISCOVERING the DISCOVER that waits; in RUNNING by rank the head of the signalling FIFO, the
oldest access, a due quarantine PROBE, and then by turn the LINE read or the LS message, before the SENSE read, with
the other turn next; else an idle message. The probe counter counts to 99 and wraps, which is marked for
PROBE_COUNTER_WRAP (the model's mark, log entry 5); a probe-due flag of a chain without a QUARANTINED post is
cleared; what waits keeps its place and its attempts, and nothing else changes (R3, R34, R35, R40). -/
def Obligations.ArbiterChoosesByRank : Prop :=
  ∀ (s : State) (d : Chain), (s.leOf d).state.active = true → (s.leOf d).sent = none →
    ∃ t x, exec (.downstreamSuperframe d) s = .next t ∧ (t.leOf d).sent = some x ∧
      t.pins = { s.pins with lineOut := s.pins.lineOut.set d (downBytes d x (s.downVoice d)) } ∧
      (t.leOf d).probeCounter = (if 99 ≤ (s.leOf d).probeCounter then 0 else (s.leOf d).probeCounter + 1) ∧
      (t.leOf d).probeWrapped = (decide (99 ≤ (s.leOf d).probeCounter) || (s.leOf d).probeWrapped) ∧
      ((s.leOf d).state = .discovering → ∀ w, (s.leOf d).discovery = some w → x = .discovery w.pos) ∧
      ((s.leOf d).state = .running →
        (∀ y ys, (s.leOf d).signalling = y :: ys → x = .signalling y.pos y.msg) ∧
        ((s.leOf d).signalling = [] →
          (∀ m a, (s.lifOf m).access = some a → a.chain = d →
            (∀ k b, k ≠ m → (s.lifOf k).access = some b → b.chain = d → a.order < b.order) →
            x = .access m a.pos a.item a.write a.order) ∧
          ((∀ m a, (s.lifOf m).access = some a → a.chain ≠ d) →
            (∀ p, (s.leOf d).probeDue = true → s.probeTarget d = some p →
              x = .quarantineProbe p ∧ (t.leOf d).probeDue = false ∧ (t.leOf d).probePtr = some p) ∧
            ((s.leOf d).probeDue = false ∨ s.quarantinedOf d = [] →
              ((s.leOf d).measure = none → (s.leOf d).lsMsg = none → (s.leOf d).sense = none → x = .idle) ∧
              (∀ w, (s.leOf d).measure = some w →
                ((s.leOf d).lsMsg = none ∧ (s.leOf d).sense = none) ∨ (s.leOf d).turn = .measurement →
                x = .line w.pos ∧ (t.leOf d).turn = .supervision) ∧
              (∀ y, (s.leOf d).lsMsg = some y → (s.leOf d).measure = none ∨ (s.leOf d).turn = .supervision →
                x = .ls y.kind y.pos ∧ (t.leOf d).turn = .measurement) ∧
              (∀ y, (s.leOf d).lsMsg = none → (s.leOf d).sense = some y →
                (s.leOf d).measure = none ∨ (s.leOf d).turn = .supervision →
                x = .sense y.pos y.sensor ∧ (t.leOf d).turn = .measurement))))) ∧
      (let e := s.leOf d
       let e' := t.leOf d
       (∀ p, x ≠ .quarantineProbe p) → e'.probeDue = (e.probeDue && !(s.quarantinedOf d).isEmpty) ∧
        e'.probePtr = e.probePtr) ∧
      (let e := s.leOf d
       let e' := t.leOf d
       ((match x with
         | .line _ | .ls _ _ | .sense _ _ => False
         | _ => True) → e'.turn = e.turn) ∧
        e'.signalling.map (fun y => (y.pos, y.msg, y.attempts)) =
          e.signalling.map (fun y => (y.pos, y.msg, y.attempts)) ∧
        e'.discovery.map (fun y => (y.pos, y.attempts)) = e.discovery.map (fun y => (y.pos, y.attempts)) ∧
        e'.measure.map (fun y => (y.pos, y.attempts)) = e.measure.map (fun y => (y.pos, y.attempts)) ∧
        e'.sense.map (fun y => (y.pos, y.sensor, y.attempts)) = e.sense.map (fun y => (y.pos, y.sensor, y.attempts)) ∧
        e'.lsMsg.map (fun y => (y.kind, y.pos, y.attempts)) = e.lsMsg.map (fun y => (y.kind, y.pos, y.attempts)) ∧
        { e' with
          sent := e.sent, probeCounter := e.probeCounter, probeWrapped := e.probeWrapped, probeDue := e.probeDue
          probePtr := e.probePtr, turn := e.turn, signalling := e.signalling, discovery := e.discovery
          measure := e.measure, sense := e.sense, lsMsg := e.lsMsg } = e) ∧
      (∀ e, e ≠ d → t.leOf e =
        { s.leOf e with probeDue := (s.leOf e).probeDue && !(s.quarantinedOf e).isEmpty }) ∧
      { t with le := s.le, pins := s.pins } = s

/-- An upstream superframe at an active line end that awaits it: a served position with a valid word takes the word
and silence 0; one without rises in silence and is LOST at 16 with its last word kept; a position of another chain
stands; corrupt words are counted up to 255; the voice of the held slots is that of the superframe. This holds for
every position but that of a DISCOVER, PROBE or CLAIM answered in the same superframe. The whole of it is the voice,
then each word in rising position, then the positions silent for 16 superframes as one loss, then the attempt of the
message that was sent, with its clean answer or none: the answer's values are kept, and the attempt is judged by the
rule of its message and by the score, a probe's by the score first; the clocks that ran rise, and MP's handset has its samples. An upstream superframe that the
line end does not await changes nothing (R4, R5, R14, R19, R32, R37, R38, R41, R47, R121, R159, R208, R211). That it
holds whatever the superframe's first two bytes and what follows each part are the model's reading (log entries 33, 7),
and the order of the words, that of a message's rule and the score, the clocks and the handset's samples are its
choices (log entries 49, 52, 66, 67). -/
def Obligations.UpstreamWordsAreTaken : Prop :=
  (∀ (s : State) (d : Chain) (frame : List Byte), (s.leOf d).state.active = false ∨ (s.leOf d).sent = none →
    exec (.upstreamSuperframe d frame) s = .next s) ∧
  (∀ (s : State) (d : Chain) (m : Sent) (frame : List Byte), (s.leOf d).state.active = true →
    (s.leOf d).sent = some m →
    let word := fun (u : State) (p : Nat) =>
      let v := match classify d (u.post p) (wordBytes p frame) with
        | .valid w => u.takeWord p w
        | .corrupt => (u.countStatusFail d).takeNoWord p
        | .absent | .misdirected | .stale => u.takeNoWord p
      if (u.post p).state ≠ .active ∧ (v.post p).state = .active then v.settleLine else v.settleCalls
    let heard := (positions.filter fun p => (s.post p).serving = some d).foldl word
      { s with vx := { s.vx with upVoice := s.vx.upVoice.set d (s.slotVoice d frame) } }
    let silent := (chainOrder d).filter fun p => (heard.post p).serving = some d ∧ (heard.post p).silence = 16
    let left := if silent = [] then heard else (heard.loss d silent).settleLine
    let answer := cleanResp m (respPart frame)
    let clean := answer.isSome
    let kept := left.storeAnswer d m answer
    let judged := match m with
      | .idle => kept
      | .discovery _ =>
        match (kept.leOf d).discovery with
        | some x => if x.flying = true then kept.judgeDiscovery d x answer else kept
        | none => kept
      | .ls kind p => kept.judgeLs d kind p answer
      | .signalling p msg => (kept.judgeSignal d p msg clean).scored d p clean
      | .access k p _ _ order => (kept.judgeAccess d k order answer).scored d p clean
      | .quarantineProbe p => (kept.scored d p clean).judgeProbe d p clean
      | .sense p _ => (kept.judgeSense d answer).scored d p clean
      | .line p => (kept.judgeLine d answer).scored d p clean
    let clocked := judged.advanceClocks d (s.runningClocks d)
    exec (.upstreamSuperframe d frame) s =
      .next (((clocked.modLe d fun e => { e with sent := none }).settleLine).feedHandset d)) ∧
  ∀ (s : State) (d : Chain) (m : Sent) (frame : List Byte), (s.leOf d).state.active = true →
    (s.leOf d).sent = some m → ∃ t, exec (.upstreamSuperframe d frame) s = .next t ∧ (t.leOf d).sent = none ∧
      t.vx.upVoice = s.vx.upVoice.set d (s.slotVoice d frame) ∧
      (let k := (positions.filter fun p => (s.post p).serving == some d &&
         classify d (s.post p) (wordBytes p frame) == .corrupt).length
       (t.leOf d).statusFails =
         if (s.leOf d).statusFails < 255 then min 255 ((s.leOf d).statusFails + k) else (s.leOf d).statusFails) ∧
      (∀ p, Sent.sparing (s.leOf d) m p →
        ((s.post p).serving = some d →
          (∀ w, classify d (s.post p) (wordBytes p frame) = .valid w →
            (t.post p).lastWord = some w ∧ (t.post p).silence = 0 ∧ (t.post p).firstNext = false ∧
              (t.post p).serving = some d) ∧
          ((∀ w, classify d (s.post p) (wordBytes p frame) ≠ .valid w) →
            (t.post p).lastWord = (s.post p).lastWord ∧
            ((s.post p).silence < 15 →
              (t.post p).silence = (s.post p).silence + 1 ∧ (t.post p).serving = some d) ∧
            ((s.post p).silence = 15 →
              (t.post p).state = .lost ∧ (t.post p).serving = none ∧ (t.post p).silence = 0))) ∧
        ((s.post p).serving ≠ some d → t.post p = s.post p)) ∧
      DeviceStands s t

/-- A judged attempt of a message to a post that the sending chain serves: a clean one lowers its score by 1, a
failed one raises it by 8, up to 255, and counts a response failure; a message to another post changes neither. A
failure that brings an ACTIVE post to 128 makes it QUARANTINED with no clean probes: POSTS is set, its record is
degraded with CALL_UPDATE, its alerts are stale, its reads are withdrawn and a round in flight reads it no more. A
clean quarantine PROBE counts up to 32, at which the post is ACTIVE again with score 0, a failed one starts the
count anew; a released post whose score is below 128 is ACTIVE again at its next word, and else stays QUARANTINED
without the mark. The advance for each stale mark, and that a report which changes nothing sends no CALL_UPDATE, are
the model's reading (log entries 10, 22) (R38, R39, R41 to R43, R85, R144, R153, R166, R195). -/
def Obligations.AttemptsScoreAndQuarantine : Prop :=
  (∀ (s : State) (d : Chain) (p : Nat), (s.post p).serving ≠ some d → ∀ clean, s.scored d p clean = s) ∧
  (∀ (s : State) (d : Chain) (p : Nat), (s.post p).serving = some d →
    s.scored d p true = s.modPost p (fun x => { x with score := x.score - 1 }) ∧
    (let t := s.scored d p false
     let score := min 255 ((s.post p).score + 8)
     let counted := flagIf ((s.leOf d).respFails < 255) EventFlag.counters
     ((s.post p).state ≠ .active ∨ score < 128 →
        t.post p = { s.post p with score := score } ∧ (∀ q, q ≠ p → t.post q = s.post q) ∧
        { t.ls with posts := s.ls.posts } = s.ls ∧
        t.leOf d = { s.leOf d with respFails := advanced (s.leOf d).respFails 1 } ∧ (∀ e, e ≠ d → t.leOf e = s.leOf e) ∧
        Tells counted silent s t ∧ { t with ls := s.ls, le := s.le, lif := s.lif } = s) ∧
     ((s.post p).state = .active → 128 ≤ score → s.callsSound = true → s.alertsSound = true →
        let stale := (s.sp.alerts.filter fun a => a.pos == p && !a.stale).length
        t.post p = { s.post p with score := score, state := .quarantined, cleanProbes := 0 } ∧
        (∀ q, q ≠ p → t.post q = s.post q) ∧
        t.leOf d = { s.leOf d with
          respFails := advanced (s.leOf d).respFails 1, sense := (s.leOf d).sense.filter (·.pos != p)
          measure := (s.leOf d).measure.filter (·.pos != p) } ∧ (∀ e, e ≠ d → t.leOf e = s.leOf e) ∧
        t.cm = s.cmDegraded p true ∧
        t.sp.alerts = s.sp.alerts.map (fun a => if a.pos = p then { a with stale := true } else a) ∧
        t.sp.change = repeated wrap255 stale s.sp.change ∧ t.sp.pairs = s.sp.pairs ∧
        (∀ y, (s.leOf d).sense = some y → y.pos = p → t.sp.inflight.get d = none) ∧
        (∀ r x, t.lm.round = some r → x ∈ r.targets → x.pos = p → x.mark ≠ .waiting) ∧
        Tells (counted ++ [.posts] ++ flagIf ((s.degrading p true).isSome = true) .queue ++ flagIf (stale ≠ 0) .alerts)
          (degradedMsgs s p true) s t ∧
        t.cs = s.cs ∧ t.vx = s.vx ∧ t.time = s.time ∧ t.pending = s.pending ∧
        t.lm.volts = s.lm.volts ∧ t.lm.amps = s.lm.amps ∧ t.lm.spans = s.lm.spans))) ∧
  (∀ (s : State) (d : Chain) (p : Nat), (s.post p).serving = some d → (s.post p).state = .quarantined →
    s.judgeProbe d p false = s.modPost p (fun x => { x with cleanProbes := 0 }) ∧
    ((s.post p).cleanProbes < 31 →
      s.judgeProbe d p true = s.modPost p (fun x => { x with cleanProbes := x.cleanProbes + 1 })) ∧
    (31 ≤ (s.post p).cleanProbes → s.callsSound = true →
      let t := s.judgeProbe d p true
      t.post p = { s.post p with state := .active, score := 0, cleanProbes := 0 } ∧ (∀ q, q ≠ p → t.post q = s.post q) ∧
        t.cm = s.cmDegraded p false ∧
        t.sp = { s.sp with pairs := s.sp.pairs.map fun x => if x.pos = p then { x with due := s.time } else x } ∧
        Tells ([.posts] ++ flagIf ((s.degrading p false).isSome = true) .queue) (degradedMsgs s p false) s t ∧
        (∀ e, { t.leOf e with probeDue := (s.leOf e).probeDue } = s.leOf e) ∧ t.lm = s.lm ∧ t.cs = s.cs ∧
        t.vx = s.vx ∧ t.time = s.time ∧ t.pending = s.pending)) ∧
  ∀ (s : State) (p : Nat) (w : StatusWord), (s.post p).releaseMark = true → (s.post p).state = .quarantined →
    let x := (s.takeWord p w).post p
    x.releaseMark = false ∧ x.silence = 0 ∧ x.lastWord = some w ∧ x.score = (s.post p).score ∧
      ((s.post p).score < 128 → x.state = .active ∧ x.cleanProbes = 0) ∧
      (128 ≤ (s.post p).score → x.state = .quarantined)

/-- A judged signalling message leaves the FIFO at a clean attempt, and the call manager has its ACK; at a failed
one it stays in its place with one attempt more, and at the third it joins the tail with none. A judged access ends
with VALUE or DONE at its answer and TIMEOUT at the third failure in a row, with COMPLETION unless it is orphaned;
PENDING starts the failures anew and the PENDING clock, which rises with every superframe once it runs; and an
access that ended or moved to the other line end is not touched, which is the model's reading (log entry 24), as is
the mark of a message under way (log entries 7, 24). A SENSE or LINE read under way frees its place at a clean answer,
and SP or LM has the value; a failed attempt counts, and the third in a row frees the place, and SP or LM hears that
the read failed; a read that is gone or not under way is not touched (R32, R37, R44, R47 to R49, R147, R166, R187). -/
def Obligations.SignalsAndAccessesAreJudged : Prop :=
  (∀ (s : State) (d : Chain) (p : Nat) (msg : Signal) (before later : List SigMsg) (x : SigMsg),
    (s.leOf d).signalling = before ++ x :: later → x.pos = p → x.flying = true →
    ((s.leOf d).signalling.map (·.pos)).Nodup →
    let put := fun (q : List SigMsg) => s.modLe d fun e => { e with signalling := q }
    s.judgeSignal d p msg true = (put (before ++ later)).callAck p msg ∧
      (x.attempts < 2 → s.judgeSignal d p msg false =
        put (before ++ { x with attempts := x.attempts + 1, flying := false } :: later)) ∧
      (2 ≤ x.attempts → s.judgeSignal d p msg false =
        put (before ++ later ++ [{ x with attempts := 0, flying := false }]))) ∧
  (∀ (s : State) (d : Chain) (m : Master) (order : Nat) (a : Access), (s.lifOf m).access = some a →
    let put := fun (x : Option Access) => s.modLif m fun l => { l with access := x }
    let ends := fun (r : AccessResult) (t : State) =>
      Tells [] (onlyFor m (if a.orphaned then [] else
        [.completion a.tag (.access a.write.isSome a.pos a.item r)])) (put none) t ∧ { t with lif := s.lif } = s
    ((a.order ≠ order ∨ a.chain ≠ d) → ∀ resp, s.judgeAccess d m order resp = s) ∧
    (a.order = order → a.chain = d →
      (∀ i v, ends (.value v) (s.judgeAccess d m order (some (.value i v)))) ∧
      ends .done (s.judgeAccess d m order (some .ack)) ∧
      s.judgeAccess d m order (some .pending) = put (some { a with fails := 0, clock := some (a.clock.getD 0) }) ∧
      (a.fails < 2 → s.judgeAccess d m order none = put (some { a with fails := a.fails + 1 })) ∧
      (2 ≤ a.fails → ends .timeout (s.judgeAccess d m order none)))) ∧
  (∀ (s : State) (d : Chain),
    let put := fun (x : Option SenseMsg) => s.modLe d fun e => { e with sense := x }
    (∀ x, (s.leOf d).sense = some x → x.flying = true →
      (∀ i v, s.judgeSense d (some (.value i v)) = (put none).senseClean d v) ∧
      (x.attempts < 2 → s.judgeSense d none = put (some { x with attempts := x.attempts + 1, flying := false })) ∧
      (2 ≤ x.attempts → s.judgeSense d none = (put none).senseFailed d)) ∧
    ((∀ x, (s.leOf d).sense = some x → x.flying = false) → ∀ answer, s.judgeSense d answer = s)) ∧
  (∀ (s : State) (d : Chain),
    let put := fun (x : Option Waiting) => s.modLe d fun e => { e with measure := x }
    (∀ x, (s.leOf d).measure = some x → x.flying = true →
      (∀ v i, s.judgeLine d (some (.lineValues v i)) = (put none).lineRead d x.pos v i) ∧
      (x.attempts < 2 → s.judgeLine d none = put (some { x with attempts := x.attempts + 1, flying := false })) ∧
      (2 ≤ x.attempts → s.judgeLine d none = (put none).lineUnread d)) ∧
    ((∀ x, (s.leOf d).measure = some x → x.flying = false) → ∀ answer, s.judgeLine d answer = s)) ∧
  ∀ (s : State) (d : Chain),
    (∀ m, (s.advanceClocks d (s.runningClocks d)).lifOf m = { s.lifOf m with
      access := (s.lifOf m).access.map fun a => if a.chain = d then { a with clock := a.clock.map (· + 1) } else a }) ∧
    { s.advanceClocks d (s.runningClocks d) with lif := s.lif } = s

/-- An IDENT serves its position on the chain that asked: a post that the chain serves already renews serial and
kind alone, and any other becomes ACTIVE, or QUARANTINED by its score, with no word taken yet and the next one its
first, its identity status set anew, POST_SILENT cleared and POSTS set. The SEVERED record of its position is WAITING
again when the serial is the record's: reconnected, degraded as its post is, preferring its last owner for 10 s when
that master is UP and eligible, with its offer set, CALL_OFFER and tone; with another serial it ends CLOSED. Without a
record, a release mark of the same serial has DISCONNECT placed, and one of another serial is cleared. A discovery run goes on to the next position
within reach, asks again after a failure, and ends at the third failure, at another answer, or with the IDENT of its
last position, which is served and counted first.
LE-F is then RUNNING: in OPEN with n the posts found, no break record, and LENGTH as the expected posts say; in LOOP
with LE-R WATCHING when every position is served and LE-R was OFF, a split when not and LE-R was OFF or WATCHING, a
repaired break when LE-R is RUNNING and holds the next post, and LE-R left as it is else. LE-R is WATCHING when its
first position was held by the other chain, and RUNNING else (R10, R13 to R16, R20, R22, R24, R25, R38, R60, R82 to
R84, R88, R89, R91, R159). That a position which the other chain serves still is given up there first is the model's choice (log entry 12),
which this leaves aside. -/
def Obligations.DiscoveryBuildsTheLine : Prop :=
  (∀ (s : State) (d : Chain) (p : Nat) (serial : Serial) (kind : Byte),
    ((s.post p).serving = some d →
      s.servePost d p serial kind = s.modPost p fun x => { x with serial := some serial, kind := some kind }) ∧
    ((s.post p).serving = none → validPos p = true →
      let t := s.servePost d p serial kind
      let low := (s.post p).score < 128
      t.post p = { s.post p with
        serial := some serial, kind := some kind, state := if low then .active else .quarantined, serving := some d
        silence := 0, lastWord := none, firstNext := true, identity := identityFor (s.entry p) (some serial)
        cleanProbes := if low then (s.post p).cleanProbes else 0 } ∧
      (∀ q, q ≠ p → t.post q = s.post q) ∧ t.hasAlert .postSilent (.position p) = false ∧ t.flagged .posts ∧
      t.ev.topo = true ∧ t.cs = s.cs ∧ t.time = s.time ∧ t.pending = s.pending ∧
      (low → ∀ x, x ∈ t.sp.pairs → x.pos = p → x.due = s.time))) ∧
  (∀ (s : State) (d : Chain) (p : Nat) (serial : Serial) (kind : Byte), (s.post p).serving = none →
    validPos p = true → s.callsSound = true →
    let t := s.servePost d p serial kind
    let tells := fun (msgs : Master → List OutMsg) => ∀ k, (t.lifOf k).tx = (s.lifOf k).queued (msgs k) ∧
      (t.lifOf k).lost = advanced (s.lifOf k).lost ((s.lifOf k).lostOf (msgs k))
    let places := fun (msg : Signal) => ∀ e,
      (t.leOf e).signalling = if e = d then putSignal p msg (s.leOf e).signalling else (s.leOf e).signalling
    (∀ c, s.callAt p = some c → c.state = .severed → s.markOf p = none → t.flagged .queue ∧
      (c.serial = serial →
        let x := s.reoffered { c with
          state := .waiting, timer := s.time, offer := ⟨false, false, false⟩, owner := none, slot := none
          channel := none, stage := none, toneTimer := none, reminderBase := none, resumed := true
          pref := (c.lastOwner.filter fun k => s.inE c.cls k).map fun k => .lastOwner k (s.time + 10000)
          flags := { c.flags with
            escalated := false, rescued := false, reconnected := true, overflow := false, transferred := false
            degraded := decide (128 ≤ (s.post p).score) } }
        t.cm.queue = s.cm.queue.map (fun y => if y.number = c.number then x else y) ∧ OtherCallsStand c.number s t ∧
          VoiceStands s t ∧ places (toneFor x.offer) ∧
          tells fun k => if x.offer.get k = true then [t.offerMsg x] else []) ∧
      (c.serial ≠ serial → CallEnds c .closed s t ∧ t.cm.marks = s.cm.marks ∧ SignallingStands s t ∧
        tells (endMsgs c .closed s))) ∧
    (s.callAt p = none → VoiceStands s t ∧ tells silent ∧
      (s.markOf p = none → t.cm = s.cm ∧ SignallingStands s t) ∧
      (s.markOf p = some serial → t.cm = s.cm ∧ places .disconnect) ∧
      ∀ y, s.markOf p = some y → y ≠ serial →
        t.cm = { s.cm with marks := put1 s.cm.marks p none } ∧ SignallingStands s t)) ∧
  (∀ (s : State) (d : Chain) (w : Waiting),
    (w.attempts < 2 → s.judgeDiscovery d w none =
      s.modLe d fun e => { e with discovery := some { pos := w.pos, attempts := w.attempts + 1 } }) ∧
    (2 ≤ w.attempts → s.judgeDiscovery d w none = s.runEnds d none) ∧
    s.judgeDiscovery d w (some .heldElsewhere) = s.runEnds d (some w.pos) ∧
    ∀ serial kind, validPos w.pos = true → (s.post w.pos).serving ≠ some (otherChain d) →
      let t := s.judgeDiscovery d w (some (.ident serial kind))
      (match d, s.ls.mode with
        | .fwd, .openLine => w.pos < 16
        | .fwd, .loop => w.pos < s.ls.n
        | .ret, .loop => 2 ≤ w.pos ∧ w.pos ≤ s.ls.n + 1
        | .ret, .openLine => False) →
      (t.leOf d).discovery = some { pos := if d = .fwd then w.pos + 1 else w.pos - 1 } ∧
        (t.leOf d).found = (s.leOf d).found + 1 ∧ (t.post w.pos).serving = some d) ∧
  (∀ (s : State) (d : Chain) (w : Waiting) (serial : Serial) (kind : Byte), validPos w.pos = true →
    (s.post w.pos).serving ≠ some (otherChain d) →
    (match d, s.ls.mode with
      | .fwd, .openLine => 16 ≤ w.pos
      | .fwd, .loop => s.ls.n ≤ w.pos
      | .ret, .loop => w.pos ≤ 1 ∨ s.ls.n + 1 < w.pos
      | .ret, .openLine => True) →
    s.judgeDiscovery d w (some (.ident serial kind)) =
      ((s.servePost d w.pos serial kind).modLe d fun e => { e with found := e.found + 1 }).runEnds d none) ∧
  (∀ (s : State) (held : Option Nat), (s.leOf .fwd).state = .discovering → s.ls.topology ≠ .rejoining →
    let t := s.runEnds .fwd held
    let want := s.cs.settings.expectedPosts
    (t.leOf .fwd).state = .running ∧ (t.leOf .fwd).discovery = none ∧
      (t.leOf .fwd).refind = some (s.time + 10000) ∧ t.ls.posts = s.ls.posts ∧ t.cm = s.cm ∧ t.cs = s.cs ∧
      (s.ls.mode = .openLine → t.ls.n = (s.leOf .fwd).found ∧ t.ls.breakRec = none ∧
        t.hasAlert .length .forwardPort = decide (want ≠ 0 ∧ want ≠ (s.leOf .fwd).found)) ∧
      (s.ls.mode = .loop → t.ls.n = s.ls.n ∧
        ((s.leOf .ret).state = .off → s.b = s.ls.n → (t.leOf .ret).state = .watching ∧ t.ls.breakRec = none) ∧
        ((s.leOf .ret).state = .off ∧ s.b ≠ s.ls.n ∨ (s.leOf .ret).state = .watching ∧ s.b < s.ls.n →
          (t.leOf .ret).state = .feeding ∧ (t.leOf .ret).settle = some (s.time + 250) ∧
            t.ls.breakRec.map (fun x => (x.first, x.last)) = some (s.b + 1, s.r)) ∧
        ((s.leOf .ret).state = .running → held = some (s.b + 1) → s.b < s.ls.n →
          (s.returnCount = 0 → t.ls.topology = .rejoining ∧ t.ls.rejoinPending = false) ∧
          (s.returnCount ≠ 0 → t.ls.topology = .split ∧ t.ls.rejoinPending = true)) ∧
        ((s.leOf .ret).state ∈ [.feeding, .discovering, .failed] ∨
            ((s.leOf .ret).state = .running ∧ held ≠ some (s.b + 1) ∧ s.b < s.ls.n) ∨
            ((s.leOf .ret).state = .watching ∧ s.ls.n ≤ s.b) →
          t.leOf .ret = s.leOf .ret))) ∧
  ∀ (s : State) (held : Option Nat), (s.leOf .ret).state = .discovering → s.ls.topology ≠ .rejoining → s.b < s.ls.n →
    let t := s.runEnds .ret held
    let none_ := (s.leOf .ret).found = 0 ∧ held.isSome = true
    (t.leOf .ret).discovery = none ∧ t.ls.posts = s.ls.posts ∧ t.cm = s.cm ∧ t.cs = s.cs ∧
      (none_ → (t.leOf .ret).state = .watching ∧ t.ls.breakRec = none ∧ t.pins.lineOut.get .ret = []) ∧
      (¬ none_ → (t.leOf .ret).state = .running) ∧
      ((s.leOf .fwd).state = .running → 1 ≤ (s.leOf .ret).found → held = some s.b →
        (s.returnCount = 0 → t.ls.topology = .rejoining) ∧
        (s.returnCount ≠ 0 → t.ls.topology = .split ∧ t.ls.rejoinPending = true)) ∧
      ((s.leOf .fwd).state = .running → ¬ none_ → held ≠ some s.b → t.ls.topology = .split)

/-- An LS message whose attempt fails is sent again, and its third failure is its result. A re-find DISCOVER that
finds its post goes on to the next position that its chain does not serve; HELD_ELSEWHERE across the gap repairs the
break: the rejoin starts at once when no call stands on the return chain, and is held back by REJOIN_PENDING else.
The rejoin PROBE has the same effect at HELD_ELSEWHERE, starts a re-find run at b+1 at another answer, and clears
the marker without one. A CLAIMED answer moves its post from the return to the forward chain with state and score,
no word taken and no clean probes: its signalling message at LE-R joins the tail of LE-F's FIFO with its attempts,
its accesses pass to LE-F, and its reads are withdrawn; then its voiced call goes to the lowest free forward slot
with its channel, a CONNECTED one with its CONNECT placed; a CONNECTED one without a free slot waits again, rescued,
with its tone placed, and an ALERTING one ends NO_ANSWER with STOP_RING placed; another answer, or none, stops the
rejoin in SPLIT. That a CLAIM waits for a taken LS place is the model's choice (log entry 11), and serial, kind and
absent last word at a move are its reading (log entry 27) (R13, R14, R17, R24, R25, R27, R28, R33, R43, R44, R122).
-/
def Obligations.ClaimsAndProbesRejoinTheChains : Prop :=
  (∀ (s : State) (d : Chain) (x : LsMsg), (s.leOf d).lsMsg = some x → x.flying = true →
    (x.attempts < 2 → s.judgeLs d x.kind x.pos none =
      s.setLs d (some { x with attempts := x.attempts + 1, flying := false })) ∧
    (2 ≤ x.attempts → s.judgeLs d x.kind x.pos none =
      ((s.setLs d none).lsResult d x.kind x.pos none).claimOn) ∧
    ∀ resp, s.judgeLs d x.kind x.pos (some resp) = ((s.setLs d none).lsResult d x.kind x.pos (some resp)).claimOn) ∧
  (∀ (s : State) (d : Chain) (p : Nat), s.ls.topology = .split → (s.leOf .fwd).state = .running →
    (s.leOf .ret).state = .running → s.b < s.ls.n →
    ∀ t, (t = s.lsResult .fwd .discover p (some .heldElsewhere) ∧ p = s.b + 1 ∨
        t = s.lsResult .ret .discover p (some .heldElsewhere) ∧ p = s.b ∨
        t = s.lsResult d .probe p (some .heldElsewhere)) →
      (s.returnCount = 0 → t.ls.topology = .rejoining ∧ t.ls.rejoinPending = false ∧
        (t.leOf .fwd).lsMsg = (match (s.leOf .fwd).lsMsg with
          | none => some { kind := .claim, pos := s.b + 1 }
          | some y => some y)) ∧
      (s.returnCount ≠ 0 → t.ls.topology = .split ∧ t.ls.rejoinPending = true ∧ t.le = s.le) ∧
      t.ls.posts = s.ls.posts ∧ t.cm = s.cm ∧ t.cs = s.cs) ∧
  (∀ (s : State) (d : Chain) (p : Nat) (resp : Resp),
    (resp = .present ∨ resp = .unassigned → s.ls.mode = .loop → s.b < s.ls.n →
      s.lsResult d .probe p (some resp) = s.setLs .fwd (some { kind := .discover, pos := s.b + 1 })) ∧
    (s.lsResult d .probe p none).ls.rejoinPending = false ∧
    (∀ other, (match other with
        | some (.claimed _ _) => False
        | _ => True) → s.ls.topology = .rejoining →
      (s.leOf .fwd).state = .running → (s.leOf .ret).state = .running →
      let t := s.lsResult d .claim p other
      t.ls.topology = .split ∧ t.ls.posts = s.ls.posts ∧ t.cm = s.cm) ∧
    (∀ serial kind, validPos p = true → (s.post p).serving = none → (s.leOf d).state = .running →
      (s.leOf d).lsMsg = none →
      let next := if d = .fwd then p + 1 else p - 1
      let t := s.lsResult d .discover p (some (.ident serial kind))
      (t.post p).serving = some d ∧
        ((t.leOf d).state = .running ∨
          (d = .ret ∧ s.ls.topology = .split ∧ t.b = s.ls.n ∧ (t.leOf d).state = .watching)) ∧
        (t.leOf d).lsMsg =
          if (t.leOf d).state = .running ∧ (s.ls.mode = .loop ∨ d = .fwd) ∧ 1 ≤ next ∧ next ≤ s.ls.n ∧
            (s.post next).serving ≠ some d then some { kind := .discover, pos := next } else none)) ∧
  ∀ (s : State) (p : Nat) (serial : Serial) (kind : Byte), validPos p = true → (s.post p).serving = some .ret →
    s.callsSound = true →
    let t := s.claimed p serial kind
    let joined := (s.leOf .fwd).signalling ++
      ((s.leOf .ret).signalling.filter (·.pos == p)).map fun y => { y with flying := false }
    t.post p = { s.post p with
      serial := some serial, kind := some kind, serving := some .fwd, silence := 0, cleanProbes := 0, lastWord := none
      firstNext := true, identity := identityFor (s.entry p) (some serial) } ∧
    (∀ q, q ≠ p → t.post q = s.post q) ∧ t.flagged .posts ∧ t.cs = s.cs ∧ t.time = s.time ∧
    (t.leOf .ret).signalling = (s.leOf .ret).signalling.filter (·.pos != p) ∧
    (∀ y, (t.leOf .ret).sense = some y → y.pos ≠ p) ∧ (∀ y, (t.leOf .ret).measure = some y → y.pos ≠ p) ∧
    (∀ m a, (s.lifOf m).access = some a → (t.lifOf m).access =
      some (if a.chain = .ret ∧ a.pos = p then { a with chain := .fwd } else a)) ∧
    (∀ c, s.callAt p = some c → ∀ k, 1 ≤ k → k ≤ 6 →
      (s.slotOf .fwd k = none ∧ (∀ j, 1 ≤ j → j < k → (s.slotOf .fwd j).isSome) →
        (c.state = .connected ∨ c.state = .alerting →
          t.callOf c.number = some { c with slot := some (.fwd, k) } ∧ OtherCallsStand c.number s t ∧
          (∀ m ch, c.owner = some m → c.channel = some ch → channelIn m ch = true →
            t.slotOf .fwd k = some c.number ∧
              t.channelOf m ch = some { call := c.number, chain := .fwd, slot := k })) ∧
        (c.state = .connected → (t.leOf .fwd).signalling = putSignal p (.connect k) joined) ∧
        (c.state = .alerting → (t.leOf .fwd).signalling = joined))) ∧
    (∀ c, s.callAt p = some c → (∀ k, 1 ≤ k → k ≤ 6 → (s.slotOf .fwd k).isSome) →
      (c.state = .connected → ∃ y, t.callOf c.number = some y ∧ y.state = .waiting ∧ y.flags.rescued = true ∧
        y.owner = none ∧ y.slot = none ∧ y.channel = none ∧ y.timer = s.time ∧
        (t.leOf .fwd).signalling = putSignal p (toneFor y.offer) joined) ∧
      (c.state = .alerting → t.callOf c.number = none ∧ (t.leOf .fwd).signalling = putSignal p .stopRing joined)) ∧
    ((∀ c, s.callAt p = some c → c.state ≠ .connected ∧ c.state ≠ .alerting) →
      t.cm = s.cm ∧ t.vx = s.vx ∧ (t.leOf .fwd).signalling = joined)

/-- The positions of a chain that a superframe finds missing are one loss: each is LOST, served by no chain, with
silence, clean probes and release mark cleared and score, serial and last word kept, and every other post stands; a
rejoin stops. The WAITING, CONNECTED or HELD record of a missing position becomes SEVERED in its place, without owner,
offers and voice path, and the owner hears CALL_UPDATE, the masters of its offer set CALL_WITHDRAWN; a CLEARING one
ends CLEARED_BY_CONTROL, an ALERTING one NO_ANSWER, and no other record changes; an access that waited for the post ends
NO_POST. The longest end of the chain that lies in the set is the break part, and each missing position before
it raises POST_SILENT. A break part sets the break record on the boundaries as they then stand; in LOOP with LE-R
WATCHING the split begins with LE-R FEEDING when it has seen no forward superframe for 8 superframes, and else there
is POST_SILENT alone; without a break part none begins (R2, R19 to R23, R28, R43, R48, R70, R72, R85, R88, R90).
That a loss changes a record once, and the last owner, are the model's reading (log entries 9, 34); the order of the
notices is its choice (log entries 50, 63). -/
def Obligations.LossesLeaveBreaks : Prop :=
  (∀ (s : State) (p : Nat), s.callsSound = true → (s.post p).serving = none →
    let t := s.callLost p
    (s.callAt p = none → t = s) ∧
    ∀ c, s.callAt p = some c →
      (c.state = .severed → t = s) ∧
      (c.state ≠ .severed → CallsFall (· = p) s t ∧ SignallingStands s t ∧
        PlainCallEvent [.queue] (lossMsgs s c) s t)) ∧
  ∀ (s : State) (d : Chain) (missing before part : List Nat), s.served d = before ++ part →
    (∀ p, p ∈ missing → (s.post p).serving = some d) → (∀ p, p ∈ part → p ∈ missing) →
    (∀ p, before.getLast? = some p → p ∉ missing) → missing ≠ [] → (s.ls.topology = .split → s.b < s.ls.n) →
    (s.ls.mode = .openLine → d = .fwd) →
    ((s.leOf .ret).state = .watching → (s.leOf .fwd).state = .running) →
    let t := s.loss d missing
    (∀ p, p ∈ missing → t.post p = { s.post p with
      state := .lost, serving := none, silence := 0, cleanProbes := 0, releaseMark := false, firstNext := false }) ∧
    (∀ p, p ∉ missing → t.post p = s.post p) ∧ t.flagged .posts ∧ t.ev.topo = true ∧
    (s.callsSound = true → CallsFall (· ∈ missing) s t ∧
      (missing.Nodup → ∀ k, (t.lifOf k).tx = (s.lifOf k).queued (missing.flatMap fun p => s.lostMsgs d p k) ∧
        (t.lifOf k).lost =
          advanced (s.lifOf k).lost ((s.lifOf k).lostOf (missing.flatMap fun p => s.lostMsgs d p k)))) ∧
    t.leOf .fwd = { s.leOf .fwd with
      signalling := (t.leOf .fwd).signalling, probeDue := (t.leOf .fwd).probeDue, sense := (t.leOf .fwd).sense
      measure := (t.leOf .fwd).measure, lsMsg := (t.leOf .fwd).lsMsg } ∧
    (∀ y, y ∈ (t.leOf d).signalling → y.pos ∉ missing) ∧
    (∀ m a, (t.lifOf m).access = some a → a.chain = d → a.pos ∉ missing) ∧
    (∀ p, p ∈ before → p ∈ missing → t.hasAlert .postSilent (.position p) = true) ∧
    (s.ls.topology = .rejoining → (s.leOf .fwd).state = .running → (s.leOf .ret).state = .running →
      t.ls.topology = .split ∧ ∀ y, (t.leOf .fwd).lsMsg = some y → y.kind ≠ .claim) ∧
    (let sees := d = .fwd ∧ s.ls.mode = .loop ∧ (s.leOf .ret).state = .watching
     (part = [] → (t.leOf .ret).state = (s.leOf .ret).state) ∧
     (part ≠ [] →
      (¬ sees → (t.leOf .ret).state = (s.leOf .ret).state ∧ t.ls.breakRec.map (fun x => (x.first, x.last)) =
        some (t.b + 1, if s.ls.mode = .loop then t.r else t.b + 1)) ∧
      (sees → (s.leOf .ret).age < 8 → (t.leOf .ret).state = .watching ∧
        ∀ p, p ∈ part → t.hasAlert .postSilent (.position p) = true) ∧
      (sees → 8 ≤ (s.leOf .ret).age → (t.leOf .ret).state = .feeding ∧
        (t.leOf .ret).settle = some (s.time + 250) ∧
        t.ls.breakRec.map (fun x => (x.first, x.last)) = some (t.b + 1, t.r)))) ∧
    t.cs = s.cs ∧ t.time = s.time ∧ t.dev = s.dev ∧ t.pending = s.pending

/-- An over-current of a feeding line end: it is FAILED with a 30 s retry timer, every post it served is LOST,
FEED_FAULT stands for it, it sends nothing more, what waited there is gone, and every other post and the
configuration stand. The calls of the lost posts become SEVERED, or end while CLEARING or ALERTING. The topology follows from the other line end, and a rejoin stops. In OPEN the break record is
cleared. In LOOP a failed LE-F sends a LE-R that is OFF or WATCHING to FEEDING with the break record set; with LE-R
FAILED too the record is cleared; with LE-R FEEDING, DISCOVERING or RUNNING it is set or recomputed, LE-R going on.
A failed LE-R leaves LE-F as it is (R3, R9, R11, R21, R22, R28, R43, R70, R72, R90). That the record of a line whose topology
becomes DOWN meanwhile is set anew is the model's choice (log entry 38). -/
def Obligations.OverCurrentFailsTheLineEnd : Prop :=
  ∀ (s : State) (d : Chain), (s.leOf d).state.feedOn = true → 10 ≤ (s.leOf d).overRun →
    ∃ t, exec (.overCurrent d) s = .next t ∧ (t.leOf d).state = .failed ∧
      (t.leOf d).retry = some (s.time + 30000) ∧ t.hasAlert .feedFault (.lineEnd d) = true ∧
      ((s.leOf d).state.active = true → (t.leOf d).sent = none ∧ t.pins.lineOut.get d = [] ∧
        (t.leOf d).signalling = [] ∧ (t.leOf d).lsMsg = none ∧ (t.leOf d).discovery = none ∧
        ∀ k a, (t.lifOf k).access = some a → a.chain ≠ d) ∧
      (∀ p, (s.post p).serving = some d →
        (t.post p).state = .lost ∧ (t.post p).serving = none ∧ (t.post p).silence = 0 ∧
          (t.post p).lastWord = (s.post p).lastWord ∧ (t.post p).serial = (s.post p).serial) ∧
      (∀ p, (s.post p).serving ≠ some d → t.post p = s.post p) ∧ t.ls.mode = s.ls.mode ∧ t.ls.n = s.ls.n ∧
      (s.callsSound = true → CallsFall (fun p => (s.post p).serving = some d) s t) ∧
      t.ls.topology = (if (s.leOf (otherChain d)).state = .running then .single else .down) ∧
      ((s.ls.rejoinPending = true → s.ls.topology = .split) → t.ls.rejoinPending = false) ∧
      (s.ls.mode = .openLine → t.ls.breakRec = none) ∧
      (s.ls.mode = .loop → d = .fwd →
        ((s.leOf .ret).state = .off ∨ (s.leOf .ret).state = .watching → (t.leOf .ret).state = .feeding ∧
          (t.leOf .ret).settle = some (s.time + 250)) ∧
        ((s.leOf .ret).state = .failed → (t.leOf .ret).state = .failed ∧ t.ls.breakRec = none) ∧
        ((s.leOf .ret).state ∈ [.feeding, .discovering, .running] → (t.leOf .ret).state = (s.leOf .ret).state) ∧
        ((s.leOf .ret).state ≠ .failed →
          t.ls.breakRec.map (fun x => (x.first, x.last)) = some (t.b + 1, t.r))) ∧
      (d = .ret → (t.leOf .fwd).state = (s.leOf .fwd).state) ∧ DeviceStands s t ∧ t.mp = s.mp

/-- The settle timer of LE-F starts discovery at position 1, that of LE-R at position n unless every position is
forward-served, which puts LE-R in WATCHING; the retry timer of a FAILED line end starts FEEDING; the re-find timer
of a RUNNING line end starts anew and, with nothing still running, places PROBE b+1 for LE-F in SPLIT and else
DISCOVER for the lowest LOST or VACANT position within reach and below r, or for LE-R the highest within reach and
above b (LE-R within 1 to n: the model's reading, log entry 21). A forward superframe that passes its check sets
LE-R's age in WATCHING to 0 and clears TAIL; the age of 16 raises TAIL for span n+1 when every post still answers
forward; the wrap of a probe counter sets the probe-due flag when the chain has a QUARANTINED post (the two marks
are the model's own, log entry 5); and the 32nd superframe of a PENDING clock ends the access with TIMEOUT. No post,
call or setting changes (R10 to R13, R17, R24, R40, R47, R48). -/
def Obligations.LineTimersAndCountersRunOut : Prop :=
  (∀ (s : State) (d : Chain) (v : Nat), v ≤ s.time →
    ((s.leOf d).state = .feeding → (s.leOf d).settle = some v → ∃ t, exec (.settleExpiry d) s = .next t ∧
      (t.leOf d).settle = none ∧ PostsStand s t ∧ t.cm = s.cm ∧ DeviceStands s t ∧
      (d = .fwd → (t.leOf d).state = .discovering ∧ (t.leOf d).discovery = some { pos := 1 } ∧ (t.leOf d).found = 0) ∧
      (d = .ret → (∀ p, 1 ≤ p → p ≤ s.ls.n → (s.post p).serving = some .fwd) → (t.leOf d).state = .watching ∧
        (t.leOf d).age = 0) ∧
      (d = .ret → (∃ p, 1 ≤ p ∧ p ≤ s.ls.n ∧ (s.post p).serving ≠ some .fwd) → (t.leOf d).state = .discovering ∧
        (t.leOf d).discovery = some { pos := s.ls.n } ∧ (t.leOf d).found = 0)) ∧
    ((s.leOf d).state = .failed → (s.leOf d).retry = some v → ∃ t, exec (.retryExpiry d) s = .next t ∧
      (t.leOf d).state = .feeding ∧ (t.leOf d).settle = some (s.time + 250) ∧ (t.leOf d).overRun = 0 ∧
      (t.leOf d).retry = none ∧ PostsStand s t ∧ t.cm = s.cm ∧ DeviceStands s t) ∧
    ((s.leOf d).state = .running → (s.leOf d).refind = some v → ∃ t, exec (.refindExpiry d) s = .next t ∧
      (let e := s.leOf d
       let e' := t.leOf d
       let busy := e.lsMsg.isSome ∨ s.ls.topology = .rejoining
       let probes := d = .fwd ∧ s.ls.topology = .split
       let free := fun p => 1 ≤ p ∧ p ≤ min 16 s.ls.n ∧ ((s.post p).state = .lost ∨ (s.post p).state = .vacant) ∧
         (match d with
          | .fwd => p < s.r
          | .ret => s.ls.mode = .loop ∧ s.b < p)
       { e' with lsMsg := e.lsMsg } = { e with refind := some (s.time + 10000) } ∧
        (busy → e'.lsMsg = e.lsMsg) ∧
        (¬ busy → probes → e'.lsMsg = some { kind := .probe, pos := s.b + 1 }) ∧
        (¬ busy → ¬ probes → (∀ p, free p → (∀ q, free q → if d = .fwd then p ≤ q else q ≤ p) →
          e'.lsMsg = some { kind := .discover, pos := p }) ∧ ((∀ p, ¬ free p) → e'.lsMsg = none))) ∧
      (∀ e, e ≠ d → t.leOf e = s.leOf e) ∧ { t with le := s.le } = s)) ∧
  (∀ (s : State) (frame : List Byte), (s.leOf .ret).state = .watching → frame.length = 68 →
    forwardPasses frame = true → ∃ t, exec (.forwardSuperframeSeen frame) s = .next t ∧
      t.leOf .ret = { s.leOf .ret with age := 0, ageDue := false } ∧ t.leOf .fwd = s.leOf .fwd ∧
      (∀ a, a ∈ t.ls.alerts → a.kind ≠ .tail) ∧ t.ls.posts = s.ls.posts ∧ t.cm = s.cm ∧ DeviceStands s t) ∧
  (∀ s : State, (s.leOf .ret).state = .watching → (s.leOf .ret).ageDue = true →
    ∃ t, exec .forwardSeenAgeExpiry s = .next t ∧ t.leOf .ret = { s.leOf .ret with ageDue := false } ∧
      t.leOf .fwd = s.leOf .fwd ∧
      ((∀ p, 1 ≤ p → p ≤ s.ls.n → (s.post p).serving = some .fwd ∧ (s.post p).silence < 4) →
        t.hasAlert .tail (.spans (s.ls.n + 1) (s.ls.n + 1)) = true) ∧
      ((∃ p, 1 ≤ p ∧ p ≤ s.ls.n ∧ ((s.post p).serving ≠ some .fwd ∨ 4 ≤ (s.post p).silence)) →
        t.ls.alerts.map (fun a => (a.kind, a.place, a.time)) =
          s.ls.alerts.map (fun a => (a.kind, a.place, a.time))) ∧
      t.ls.posts = s.ls.posts ∧ t.cm = s.cm ∧ DeviceStands s t) ∧
  (∀ (s : State) (d : Chain), (s.leOf d).probeWrapped = true → ∃ t, exec (.probeCounterWrap d) s = .next t ∧
    t.leOf d = { s.leOf d with
      probeWrapped := false
      probeDue := (s.leOf d).probeDue || positions.any fun p =>
        (s.post p).serving == some d && (s.post p).state == .quarantined } ∧
    (∀ e, e ≠ d → t.leOf e = s.leOf e) ∧ { t with le := s.le } = s) ∧
  ∀ (s : State) (m : Master) (a : Access) (k : Nat), (s.lifOf m).access = some a → a.clock = some k → 32 ≤ k →
    ∃ t, exec (.pendingClockExpiry m) s = .next t ∧ (t.lifOf m).access = none ∧
      Tells [] (onlyFor m (if a.orphaned then [] else
        [.completion a.tag (.access a.write.isSome a.pos a.item .timeout)]))
        (s.modLif m fun l => { l with access := none }) t ∧ { t with lif := s.lif } = s

end
end

