-- ==== Sys2Proof/Laws/State.lean ====
section
/-! SUPPORT. What each update of the state leaves alone, field by field, and what it writes where it is read back:
every lemma is true by computation and is a simp lemma, so that no later proof unfolds a record update. -/

namespace Sys2Proof.Machine

/-! ### Like things -/

@[simp] theorem PerMaster.get_set_same {α : Type} (x : PerMaster α) (m : Master) (v : α) : (x.set m v).get m = v := by
  cases m <;> rfl

theorem PerMaster.get_set_other {α : Type} (x : PerMaster α) (m k : Master) (v : α) (h : k ≠ m) :
    (x.set m v).get k = x.get k := by
  cases m <;> cases k <;> first | rfl | exact absurd rfl h

@[simp] theorem PerMaster.get_ofFn {α : Type} (f : Master → α) (m : Master) : (PerMaster.ofFn f).get m = f m := by
  cases m <;> rfl

@[simp] theorem PerMaster.set_set {α : Type} (x : PerMaster α) (m : Master) (v w : α) :
    (x.set m v).set m w = x.set m w := by
  cases m <;> rfl

@[simp] theorem PerChain.get_set_same {α : Type} (x : PerChain α) (d : Chain) (v : α) : (x.set d v).get d = v := by
  cases d <;> rfl

theorem PerChain.get_set_other {α : Type} (x : PerChain α) (d k : Chain) (v : α) (h : k ≠ d) :
    (x.set d v).get k = x.get k := by
  cases d <;> cases k <;> first | rfl | exact absurd rfl h

@[simp] theorem PerLink.get_set_same {α : Type} (x : PerLink α) (l : ControlLink) (v : α) : (x.set l v).get l = v := by
  cases l <;> rfl

theorem PerLink.get_set_other {α : Type} (x : PerLink α) (l k : ControlLink) (v : α) (h : k ≠ l) :
    (x.set l v).get k = x.get k := by
  cases l <;> cases k <;> first | rfl | exact absurd rfl h

@[simp] theorem PerConverter.get_set_same {α : Type} (x : PerConverter α) (c : ConverterChannel) (v : α) :
    (x.set c v).get c = v := by
  cases c <;> rfl

/-- Reading a table back at the place written. -/
theorem at1_put1_same {α : Type} {n : Nat} (v : Vector α n) (p : Nat) (x d : α) (h1 : 1 ≤ p) (h2 : p ≤ n) :
    at1 (put1 v p x) p d = x := by
  have h0 : p ≠ 0 := by omega
  have h3 : p - 1 < n := by omega
  simp [at1, put1, h0, Vector.getD, h3]

/-- Reading a table at another place than the one written. -/
theorem at1_put1_other {α : Type} {n : Nat} (v : Vector α n) (p q : Nat) (x d : α) (h : q ≠ p) :
    at1 (put1 v p x) q d = at1 v q d := by
  unfold at1 put1
  split
  · rfl
  · split
    · rfl
    · rename_i hq hp
      have hne : p - 1 ≠ q - 1 := by omega
      by_cases hb : q - 1 < n
      · simp [Vector.getD, hb, hne]
      · simp [Vector.getD, hb]

/-! ### What is read back -/

@[simp] theorem State.modLif_lifOf_same (s : State) (m : Master) (f : Lif → Lif) :
    (s.modLif m f).lifOf m = f (s.lifOf m) := by
  simp [State.modLif, State.lifOf]

theorem State.modLif_lifOf_other (s : State) (m k : Master) (f : Lif → Lif) (h : k ≠ m) :
    (s.modLif m f).lifOf k = s.lifOf k := by
  simp [State.modLif, State.lifOf, PerMaster.get_set_other _ _ _ _ h]

@[simp] theorem State.modLe_leOf_same (s : State) (d : Chain) (f : LineEnd → LineEnd) :
    (s.modLe d f).leOf d = f (s.leOf d) := by
  simp [State.modLe, State.leOf]

theorem State.modLe_leOf_other (s : State) (d k : Chain) (f : LineEnd → LineEnd) (h : k ≠ d) :
    (s.modLe d f).leOf k = s.leOf k := by
  simp [State.modLe, State.leOf, PerChain.get_set_other _ _ _ _ h]

@[simp] theorem State.modAlign_alignOf_same (s : State) (l : ControlLink) (f : Alignment → Alignment) :
    (s.modAlign l f).alignOf l = f (s.alignOf l) := by
  simp [State.modAlign, State.alignOf]

theorem State.modAlign_alignOf_other (s : State) (l k : ControlLink) (f : Alignment → Alignment) (h : k ≠ l) :
    (s.modAlign l f).alignOf k = s.alignOf k := by
  simp [State.modAlign, State.alignOf, PerLink.get_set_other _ _ _ _ h]

/-- The post table entry just written reads as written. -/
theorem State.modPost_post_same (s : State) (p : Nat) (f : Post → Post) (h1 : 1 ≤ p) (h2 : p ≤ 16) :
    (s.modPost p f).post p = f (s.post p) := by
  simp [State.modPost, State.post, at1_put1_same _ _ _ _ h1 h2]

/-- The other entries of the post table read as before. -/
theorem State.modPost_post_other (s : State) (p q : Nat) (f : Post → Post) (h : q ≠ p) :
    (s.modPost p f).post q = s.post q := by
  simp [State.modPost, State.post, at1_put1_other _ _ _ _ _ h]

/-! ### What each update leaves alone -/


/-! `modLif` writes `lif`. -/

@[simp] theorem State.modLif_dev (s : State) (m : Master) (f : Lif → Lif) : (s.modLif m f).dev = s.dev := rfl
@[simp] theorem State.modLif_time (s : State) (m : Master) (f : Lif → Lif) : (s.modLif m f).time = s.time := rfl
@[simp] theorem State.modLif_align (s : State) (m : Master) (f : Lif → Lif) : (s.modLif m f).align = s.align := rfl
@[simp] theorem State.modLif_mp (s : State) (m : Master) (f : Lif → Lif) : (s.modLif m f).mp = s.mp := rfl
@[simp] theorem State.modLif_cm (s : State) (m : Master) (f : Lif → Lif) : (s.modLif m f).cm = s.cm := rfl
@[simp] theorem State.modLif_vx (s : State) (m : Master) (f : Lif → Lif) : (s.modLif m f).vx = s.vx := rfl
@[simp] theorem State.modLif_ls (s : State) (m : Master) (f : Lif → Lif) : (s.modLif m f).ls = s.ls := rfl
@[simp] theorem State.modLif_le (s : State) (m : Master) (f : Lif → Lif) : (s.modLif m f).le = s.le := rfl
@[simp] theorem State.modLif_cs (s : State) (m : Master) (f : Lif → Lif) : (s.modLif m f).cs = s.cs := rfl
@[simp] theorem State.modLif_sp (s : State) (m : Master) (f : Lif → Lif) : (s.modLif m f).sp = s.sp := rfl
@[simp] theorem State.modLif_lm (s : State) (m : Master) (f : Lif → Lif) : (s.modLif m f).lm = s.lm := rfl
@[simp] theorem State.modLif_pins (s : State) (m : Master) (f : Lif → Lif) : (s.modLif m f).pins = s.pins := rfl
@[simp] theorem State.modLif_placed (s : State) (m : Master) (f : Lif → Lif) : (s.modLif m f).placed = s.placed := rfl
@[simp] theorem State.modLif_ev (s : State) (m : Master) (f : Lif → Lif) : (s.modLif m f).ev = s.ev := rfl
@[simp] theorem State.modLif_pending (s : State) (m : Master) (f : Lif → Lif) : (s.modLif m f).pending = s.pending := rfl

/-! `modAlign` writes `align`. -/

@[simp] theorem State.modAlign_dev (s : State) (l : ControlLink) (f : Alignment → Alignment) : (s.modAlign l f).dev = s.dev := rfl
@[simp] theorem State.modAlign_time (s : State) (l : ControlLink) (f : Alignment → Alignment) : (s.modAlign l f).time = s.time := rfl
@[simp] theorem State.modAlign_lif (s : State) (l : ControlLink) (f : Alignment → Alignment) : (s.modAlign l f).lif = s.lif := rfl
@[simp] theorem State.modAlign_mp (s : State) (l : ControlLink) (f : Alignment → Alignment) : (s.modAlign l f).mp = s.mp := rfl
@[simp] theorem State.modAlign_cm (s : State) (l : ControlLink) (f : Alignment → Alignment) : (s.modAlign l f).cm = s.cm := rfl
@[simp] theorem State.modAlign_vx (s : State) (l : ControlLink) (f : Alignment → Alignment) : (s.modAlign l f).vx = s.vx := rfl
@[simp] theorem State.modAlign_ls (s : State) (l : ControlLink) (f : Alignment → Alignment) : (s.modAlign l f).ls = s.ls := rfl
@[simp] theorem State.modAlign_le (s : State) (l : ControlLink) (f : Alignment → Alignment) : (s.modAlign l f).le = s.le := rfl
@[simp] theorem State.modAlign_cs (s : State) (l : ControlLink) (f : Alignment → Alignment) : (s.modAlign l f).cs = s.cs := rfl
@[simp] theorem State.modAlign_sp (s : State) (l : ControlLink) (f : Alignment → Alignment) : (s.modAlign l f).sp = s.sp := rfl
@[simp] theorem State.modAlign_lm (s : State) (l : ControlLink) (f : Alignment → Alignment) : (s.modAlign l f).lm = s.lm := rfl
@[simp] theorem State.modAlign_pins (s : State) (l : ControlLink) (f : Alignment → Alignment) : (s.modAlign l f).pins = s.pins := rfl
@[simp] theorem State.modAlign_placed (s : State) (l : ControlLink) (f : Alignment → Alignment) : (s.modAlign l f).placed = s.placed := rfl
@[simp] theorem State.modAlign_ev (s : State) (l : ControlLink) (f : Alignment → Alignment) : (s.modAlign l f).ev = s.ev := rfl
@[simp] theorem State.modAlign_pending (s : State) (l : ControlLink) (f : Alignment → Alignment) : (s.modAlign l f).pending = s.pending := rfl

/-! `modLe` writes `le`. -/

@[simp] theorem State.modLe_dev (s : State) (d : Chain) (f : LineEnd → LineEnd) : (s.modLe d f).dev = s.dev := rfl
@[simp] theorem State.modLe_time (s : State) (d : Chain) (f : LineEnd → LineEnd) : (s.modLe d f).time = s.time := rfl
@[simp] theorem State.modLe_lif (s : State) (d : Chain) (f : LineEnd → LineEnd) : (s.modLe d f).lif = s.lif := rfl
@[simp] theorem State.modLe_align (s : State) (d : Chain) (f : LineEnd → LineEnd) : (s.modLe d f).align = s.align := rfl
@[simp] theorem State.modLe_mp (s : State) (d : Chain) (f : LineEnd → LineEnd) : (s.modLe d f).mp = s.mp := rfl
@[simp] theorem State.modLe_cm (s : State) (d : Chain) (f : LineEnd → LineEnd) : (s.modLe d f).cm = s.cm := rfl
@[simp] theorem State.modLe_vx (s : State) (d : Chain) (f : LineEnd → LineEnd) : (s.modLe d f).vx = s.vx := rfl
@[simp] theorem State.modLe_ls (s : State) (d : Chain) (f : LineEnd → LineEnd) : (s.modLe d f).ls = s.ls := rfl
@[simp] theorem State.modLe_cs (s : State) (d : Chain) (f : LineEnd → LineEnd) : (s.modLe d f).cs = s.cs := rfl
@[simp] theorem State.modLe_sp (s : State) (d : Chain) (f : LineEnd → LineEnd) : (s.modLe d f).sp = s.sp := rfl
@[simp] theorem State.modLe_lm (s : State) (d : Chain) (f : LineEnd → LineEnd) : (s.modLe d f).lm = s.lm := rfl
@[simp] theorem State.modLe_pins (s : State) (d : Chain) (f : LineEnd → LineEnd) : (s.modLe d f).pins = s.pins := rfl
@[simp] theorem State.modLe_placed (s : State) (d : Chain) (f : LineEnd → LineEnd) : (s.modLe d f).placed = s.placed := rfl
@[simp] theorem State.modLe_ev (s : State) (d : Chain) (f : LineEnd → LineEnd) : (s.modLe d f).ev = s.ev := rfl
@[simp] theorem State.modLe_pending (s : State) (d : Chain) (f : LineEnd → LineEnd) : (s.modLe d f).pending = s.pending := rfl

/-! `modPost` writes `ls`. -/

@[simp] theorem State.modPost_dev (s : State) (p : Nat) (f : Post → Post) : (s.modPost p f).dev = s.dev := rfl
@[simp] theorem State.modPost_time (s : State) (p : Nat) (f : Post → Post) : (s.modPost p f).time = s.time := rfl
@[simp] theorem State.modPost_lif (s : State) (p : Nat) (f : Post → Post) : (s.modPost p f).lif = s.lif := rfl
@[simp] theorem State.modPost_align (s : State) (p : Nat) (f : Post → Post) : (s.modPost p f).align = s.align := rfl
@[simp] theorem State.modPost_mp (s : State) (p : Nat) (f : Post → Post) : (s.modPost p f).mp = s.mp := rfl
@[simp] theorem State.modPost_cm (s : State) (p : Nat) (f : Post → Post) : (s.modPost p f).cm = s.cm := rfl
@[simp] theorem State.modPost_vx (s : State) (p : Nat) (f : Post → Post) : (s.modPost p f).vx = s.vx := rfl
@[simp] theorem State.modPost_le (s : State) (p : Nat) (f : Post → Post) : (s.modPost p f).le = s.le := rfl
@[simp] theorem State.modPost_cs (s : State) (p : Nat) (f : Post → Post) : (s.modPost p f).cs = s.cs := rfl
@[simp] theorem State.modPost_sp (s : State) (p : Nat) (f : Post → Post) : (s.modPost p f).sp = s.sp := rfl
@[simp] theorem State.modPost_lm (s : State) (p : Nat) (f : Post → Post) : (s.modPost p f).lm = s.lm := rfl
@[simp] theorem State.modPost_pins (s : State) (p : Nat) (f : Post → Post) : (s.modPost p f).pins = s.pins := rfl
@[simp] theorem State.modPost_placed (s : State) (p : Nat) (f : Post → Post) : (s.modPost p f).placed = s.placed := rfl
@[simp] theorem State.modPost_ev (s : State) (p : Nat) (f : Post → Post) : (s.modPost p f).ev = s.ev := rfl
@[simp] theorem State.modPost_pending (s : State) (p : Nat) (f : Post → Post) : (s.modPost p f).pending = s.pending := rfl

/-! `setMark` writes `cm`. -/

@[simp] theorem State.setMark_dev (s : State) (p : Nat) (v : Option Serial) : (s.setMark p v).dev = s.dev := rfl
@[simp] theorem State.setMark_time (s : State) (p : Nat) (v : Option Serial) : (s.setMark p v).time = s.time := rfl
@[simp] theorem State.setMark_lif (s : State) (p : Nat) (v : Option Serial) : (s.setMark p v).lif = s.lif := rfl
@[simp] theorem State.setMark_align (s : State) (p : Nat) (v : Option Serial) : (s.setMark p v).align = s.align := rfl
@[simp] theorem State.setMark_mp (s : State) (p : Nat) (v : Option Serial) : (s.setMark p v).mp = s.mp := rfl
@[simp] theorem State.setMark_vx (s : State) (p : Nat) (v : Option Serial) : (s.setMark p v).vx = s.vx := rfl
@[simp] theorem State.setMark_ls (s : State) (p : Nat) (v : Option Serial) : (s.setMark p v).ls = s.ls := rfl
@[simp] theorem State.setMark_le (s : State) (p : Nat) (v : Option Serial) : (s.setMark p v).le = s.le := rfl
@[simp] theorem State.setMark_cs (s : State) (p : Nat) (v : Option Serial) : (s.setMark p v).cs = s.cs := rfl
@[simp] theorem State.setMark_sp (s : State) (p : Nat) (v : Option Serial) : (s.setMark p v).sp = s.sp := rfl
@[simp] theorem State.setMark_lm (s : State) (p : Nat) (v : Option Serial) : (s.setMark p v).lm = s.lm := rfl
@[simp] theorem State.setMark_pins (s : State) (p : Nat) (v : Option Serial) : (s.setMark p v).pins = s.pins := rfl
@[simp] theorem State.setMark_placed (s : State) (p : Nat) (v : Option Serial) : (s.setMark p v).placed = s.placed := rfl
@[simp] theorem State.setMark_ev (s : State) (p : Nat) (v : Option Serial) : (s.setMark p v).ev = s.ev := rfl
@[simp] theorem State.setMark_pending (s : State) (p : Nat) (v : Option Serial) : (s.setMark p v).pending = s.pending := rfl

/-! `setQueue` writes `cm`. -/

@[simp] theorem State.setQueue_dev (s : State) (q : List Call) : (s.setQueue q).dev = s.dev := rfl
@[simp] theorem State.setQueue_time (s : State) (q : List Call) : (s.setQueue q).time = s.time := rfl
@[simp] theorem State.setQueue_lif (s : State) (q : List Call) : (s.setQueue q).lif = s.lif := rfl
@[simp] theorem State.setQueue_align (s : State) (q : List Call) : (s.setQueue q).align = s.align := rfl
@[simp] theorem State.setQueue_mp (s : State) (q : List Call) : (s.setQueue q).mp = s.mp := rfl
@[simp] theorem State.setQueue_vx (s : State) (q : List Call) : (s.setQueue q).vx = s.vx := rfl
@[simp] theorem State.setQueue_ls (s : State) (q : List Call) : (s.setQueue q).ls = s.ls := rfl
@[simp] theorem State.setQueue_le (s : State) (q : List Call) : (s.setQueue q).le = s.le := rfl
@[simp] theorem State.setQueue_cs (s : State) (q : List Call) : (s.setQueue q).cs = s.cs := rfl
@[simp] theorem State.setQueue_sp (s : State) (q : List Call) : (s.setQueue q).sp = s.sp := rfl
@[simp] theorem State.setQueue_lm (s : State) (q : List Call) : (s.setQueue q).lm = s.lm := rfl
@[simp] theorem State.setQueue_pins (s : State) (q : List Call) : (s.setQueue q).pins = s.pins := rfl
@[simp] theorem State.setQueue_placed (s : State) (q : List Call) : (s.setQueue q).placed = s.placed := rfl
@[simp] theorem State.setQueue_ev (s : State) (q : List Call) : (s.setQueue q).ev = s.ev := rfl
@[simp] theorem State.setQueue_pending (s : State) (q : List Call) : (s.setQueue q).pending = s.pending := rfl

/-! `modCall` writes `cm`. -/

@[simp] theorem State.modCall_dev (s : State) (num : Nat) (f : Call → Call) : (s.modCall num f).dev = s.dev := rfl
@[simp] theorem State.modCall_time (s : State) (num : Nat) (f : Call → Call) : (s.modCall num f).time = s.time := rfl
@[simp] theorem State.modCall_lif (s : State) (num : Nat) (f : Call → Call) : (s.modCall num f).lif = s.lif := rfl
@[simp] theorem State.modCall_align (s : State) (num : Nat) (f : Call → Call) : (s.modCall num f).align = s.align := rfl
@[simp] theorem State.modCall_mp (s : State) (num : Nat) (f : Call → Call) : (s.modCall num f).mp = s.mp := rfl
@[simp] theorem State.modCall_vx (s : State) (num : Nat) (f : Call → Call) : (s.modCall num f).vx = s.vx := rfl
@[simp] theorem State.modCall_ls (s : State) (num : Nat) (f : Call → Call) : (s.modCall num f).ls = s.ls := rfl
@[simp] theorem State.modCall_le (s : State) (num : Nat) (f : Call → Call) : (s.modCall num f).le = s.le := rfl
@[simp] theorem State.modCall_cs (s : State) (num : Nat) (f : Call → Call) : (s.modCall num f).cs = s.cs := rfl
@[simp] theorem State.modCall_sp (s : State) (num : Nat) (f : Call → Call) : (s.modCall num f).sp = s.sp := rfl
@[simp] theorem State.modCall_lm (s : State) (num : Nat) (f : Call → Call) : (s.modCall num f).lm = s.lm := rfl
@[simp] theorem State.modCall_pins (s : State) (num : Nat) (f : Call → Call) : (s.modCall num f).pins = s.pins := rfl
@[simp] theorem State.modCall_placed (s : State) (num : Nat) (f : Call → Call) : (s.modCall num f).placed = s.placed := rfl
@[simp] theorem State.modCall_ev (s : State) (num : Nat) (f : Call → Call) : (s.modCall num f).ev = s.ev := rfl
@[simp] theorem State.modCall_pending (s : State) (num : Nat) (f : Call → Call) : (s.modCall num f).pending = s.pending := rfl

/-! `setSlot` writes `vx`. -/

@[simp] theorem State.setSlot_dev (s : State) (d : Chain) (slot : Nat) (v : Option Nat) : (s.setSlot d slot v).dev = s.dev := rfl
@[simp] theorem State.setSlot_time (s : State) (d : Chain) (slot : Nat) (v : Option Nat) : (s.setSlot d slot v).time = s.time := rfl
@[simp] theorem State.setSlot_lif (s : State) (d : Chain) (slot : Nat) (v : Option Nat) : (s.setSlot d slot v).lif = s.lif := rfl
@[simp] theorem State.setSlot_align (s : State) (d : Chain) (slot : Nat) (v : Option Nat) : (s.setSlot d slot v).align = s.align := rfl
@[simp] theorem State.setSlot_mp (s : State) (d : Chain) (slot : Nat) (v : Option Nat) : (s.setSlot d slot v).mp = s.mp := rfl
@[simp] theorem State.setSlot_cm (s : State) (d : Chain) (slot : Nat) (v : Option Nat) : (s.setSlot d slot v).cm = s.cm := rfl
@[simp] theorem State.setSlot_ls (s : State) (d : Chain) (slot : Nat) (v : Option Nat) : (s.setSlot d slot v).ls = s.ls := rfl
@[simp] theorem State.setSlot_le (s : State) (d : Chain) (slot : Nat) (v : Option Nat) : (s.setSlot d slot v).le = s.le := rfl
@[simp] theorem State.setSlot_cs (s : State) (d : Chain) (slot : Nat) (v : Option Nat) : (s.setSlot d slot v).cs = s.cs := rfl
@[simp] theorem State.setSlot_sp (s : State) (d : Chain) (slot : Nat) (v : Option Nat) : (s.setSlot d slot v).sp = s.sp := rfl
@[simp] theorem State.setSlot_lm (s : State) (d : Chain) (slot : Nat) (v : Option Nat) : (s.setSlot d slot v).lm = s.lm := rfl
@[simp] theorem State.setSlot_pins (s : State) (d : Chain) (slot : Nat) (v : Option Nat) : (s.setSlot d slot v).pins = s.pins := rfl
@[simp] theorem State.setSlot_placed (s : State) (d : Chain) (slot : Nat) (v : Option Nat) : (s.setSlot d slot v).placed = s.placed := rfl
@[simp] theorem State.setSlot_ev (s : State) (d : Chain) (slot : Nat) (v : Option Nat) : (s.setSlot d slot v).ev = s.ev := rfl
@[simp] theorem State.setSlot_pending (s : State) (d : Chain) (slot : Nat) (v : Option Nat) : (s.setSlot d slot v).pending = s.pending := rfl

/-! `setChannel` writes `vx`. -/

@[simp] theorem State.setChannel_dev (s : State) (m : Master) (ch : Nat) (v : Option Join) : (s.setChannel m ch v).dev = s.dev := rfl
@[simp] theorem State.setChannel_time (s : State) (m : Master) (ch : Nat) (v : Option Join) : (s.setChannel m ch v).time = s.time := rfl
@[simp] theorem State.setChannel_lif (s : State) (m : Master) (ch : Nat) (v : Option Join) : (s.setChannel m ch v).lif = s.lif := rfl
@[simp] theorem State.setChannel_align (s : State) (m : Master) (ch : Nat) (v : Option Join) : (s.setChannel m ch v).align = s.align := rfl
@[simp] theorem State.setChannel_mp (s : State) (m : Master) (ch : Nat) (v : Option Join) : (s.setChannel m ch v).mp = s.mp := rfl
@[simp] theorem State.setChannel_cm (s : State) (m : Master) (ch : Nat) (v : Option Join) : (s.setChannel m ch v).cm = s.cm := rfl
@[simp] theorem State.setChannel_ls (s : State) (m : Master) (ch : Nat) (v : Option Join) : (s.setChannel m ch v).ls = s.ls := rfl
@[simp] theorem State.setChannel_le (s : State) (m : Master) (ch : Nat) (v : Option Join) : (s.setChannel m ch v).le = s.le := rfl
@[simp] theorem State.setChannel_cs (s : State) (m : Master) (ch : Nat) (v : Option Join) : (s.setChannel m ch v).cs = s.cs := rfl
@[simp] theorem State.setChannel_sp (s : State) (m : Master) (ch : Nat) (v : Option Join) : (s.setChannel m ch v).sp = s.sp := rfl
@[simp] theorem State.setChannel_lm (s : State) (m : Master) (ch : Nat) (v : Option Join) : (s.setChannel m ch v).lm = s.lm := rfl
@[simp] theorem State.setChannel_pins (s : State) (m : Master) (ch : Nat) (v : Option Join) : (s.setChannel m ch v).pins = s.pins := rfl
@[simp] theorem State.setChannel_placed (s : State) (m : Master) (ch : Nat) (v : Option Join) : (s.setChannel m ch v).placed = s.placed := rfl
@[simp] theorem State.setChannel_ev (s : State) (m : Master) (ch : Nat) (v : Option Join) : (s.setChannel m ch v).ev = s.ev := rfl
@[simp] theorem State.setChannel_pending (s : State) (m : Master) (ch : Nat) (v : Option Join) : (s.setChannel m ch v).pending = s.pending := rfl

/-! `setAlerts` writes `ls`. -/

@[simp] theorem State.setAlerts_dev (s : State) (xs : List LineAlert) : (s.setAlerts xs).dev = s.dev := rfl
@[simp] theorem State.setAlerts_time (s : State) (xs : List LineAlert) : (s.setAlerts xs).time = s.time := rfl
@[simp] theorem State.setAlerts_lif (s : State) (xs : List LineAlert) : (s.setAlerts xs).lif = s.lif := rfl
@[simp] theorem State.setAlerts_align (s : State) (xs : List LineAlert) : (s.setAlerts xs).align = s.align := rfl
@[simp] theorem State.setAlerts_mp (s : State) (xs : List LineAlert) : (s.setAlerts xs).mp = s.mp := rfl
@[simp] theorem State.setAlerts_cm (s : State) (xs : List LineAlert) : (s.setAlerts xs).cm = s.cm := rfl
@[simp] theorem State.setAlerts_vx (s : State) (xs : List LineAlert) : (s.setAlerts xs).vx = s.vx := rfl
@[simp] theorem State.setAlerts_le (s : State) (xs : List LineAlert) : (s.setAlerts xs).le = s.le := rfl
@[simp] theorem State.setAlerts_cs (s : State) (xs : List LineAlert) : (s.setAlerts xs).cs = s.cs := rfl
@[simp] theorem State.setAlerts_sp (s : State) (xs : List LineAlert) : (s.setAlerts xs).sp = s.sp := rfl
@[simp] theorem State.setAlerts_lm (s : State) (xs : List LineAlert) : (s.setAlerts xs).lm = s.lm := rfl
@[simp] theorem State.setAlerts_pins (s : State) (xs : List LineAlert) : (s.setAlerts xs).pins = s.pins := rfl
@[simp] theorem State.setAlerts_placed (s : State) (xs : List LineAlert) : (s.setAlerts xs).placed = s.placed := rfl
@[simp] theorem State.setAlerts_ev (s : State) (xs : List LineAlert) : (s.setAlerts xs).ev = s.ev := rfl
@[simp] theorem State.setAlerts_pending (s : State) (xs : List LineAlert) : (s.setAlerts xs).pending = s.pending := rfl

/-! `setPairs` writes `sp`. -/

@[simp] theorem State.setPairs_dev (s : State) (xs : List Pair) : (s.setPairs xs).dev = s.dev := rfl
@[simp] theorem State.setPairs_time (s : State) (xs : List Pair) : (s.setPairs xs).time = s.time := rfl
@[simp] theorem State.setPairs_lif (s : State) (xs : List Pair) : (s.setPairs xs).lif = s.lif := rfl
@[simp] theorem State.setPairs_align (s : State) (xs : List Pair) : (s.setPairs xs).align = s.align := rfl
@[simp] theorem State.setPairs_mp (s : State) (xs : List Pair) : (s.setPairs xs).mp = s.mp := rfl
@[simp] theorem State.setPairs_cm (s : State) (xs : List Pair) : (s.setPairs xs).cm = s.cm := rfl
@[simp] theorem State.setPairs_vx (s : State) (xs : List Pair) : (s.setPairs xs).vx = s.vx := rfl
@[simp] theorem State.setPairs_ls (s : State) (xs : List Pair) : (s.setPairs xs).ls = s.ls := rfl
@[simp] theorem State.setPairs_le (s : State) (xs : List Pair) : (s.setPairs xs).le = s.le := rfl
@[simp] theorem State.setPairs_cs (s : State) (xs : List Pair) : (s.setPairs xs).cs = s.cs := rfl
@[simp] theorem State.setPairs_lm (s : State) (xs : List Pair) : (s.setPairs xs).lm = s.lm := rfl
@[simp] theorem State.setPairs_pins (s : State) (xs : List Pair) : (s.setPairs xs).pins = s.pins := rfl
@[simp] theorem State.setPairs_placed (s : State) (xs : List Pair) : (s.setPairs xs).placed = s.placed := rfl
@[simp] theorem State.setPairs_ev (s : State) (xs : List Pair) : (s.setPairs xs).ev = s.ev := rfl
@[simp] theorem State.setPairs_pending (s : State) (xs : List Pair) : (s.setPairs xs).pending = s.pending := rfl

/-! `setAlertTable` writes `sp`. -/

@[simp] theorem State.setAlertTable_dev (s : State) (xs : List Alert) : (s.setAlertTable xs).dev = s.dev := rfl
@[simp] theorem State.setAlertTable_time (s : State) (xs : List Alert) : (s.setAlertTable xs).time = s.time := rfl
@[simp] theorem State.setAlertTable_lif (s : State) (xs : List Alert) : (s.setAlertTable xs).lif = s.lif := rfl
@[simp] theorem State.setAlertTable_align (s : State) (xs : List Alert) : (s.setAlertTable xs).align = s.align := rfl
@[simp] theorem State.setAlertTable_mp (s : State) (xs : List Alert) : (s.setAlertTable xs).mp = s.mp := rfl
@[simp] theorem State.setAlertTable_cm (s : State) (xs : List Alert) : (s.setAlertTable xs).cm = s.cm := rfl
@[simp] theorem State.setAlertTable_vx (s : State) (xs : List Alert) : (s.setAlertTable xs).vx = s.vx := rfl
@[simp] theorem State.setAlertTable_ls (s : State) (xs : List Alert) : (s.setAlertTable xs).ls = s.ls := rfl
@[simp] theorem State.setAlertTable_le (s : State) (xs : List Alert) : (s.setAlertTable xs).le = s.le := rfl
@[simp] theorem State.setAlertTable_cs (s : State) (xs : List Alert) : (s.setAlertTable xs).cs = s.cs := rfl
@[simp] theorem State.setAlertTable_lm (s : State) (xs : List Alert) : (s.setAlertTable xs).lm = s.lm := rfl
@[simp] theorem State.setAlertTable_pins (s : State) (xs : List Alert) : (s.setAlertTable xs).pins = s.pins := rfl
@[simp] theorem State.setAlertTable_placed (s : State) (xs : List Alert) : (s.setAlertTable xs).placed = s.placed := rfl
@[simp] theorem State.setAlertTable_ev (s : State) (xs : List Alert) : (s.setAlertTable xs).ev = s.ev := rfl
@[simp] theorem State.setAlertTable_pending (s : State) (xs : List Alert) : (s.setAlertTable xs).pending = s.pending := rfl

/-! `setSpan` writes `lm`. -/

@[simp] theorem State.setSpan_dev (s : State) (k : Nat) (x : Span) : (s.setSpan k x).dev = s.dev := rfl
@[simp] theorem State.setSpan_time (s : State) (k : Nat) (x : Span) : (s.setSpan k x).time = s.time := rfl
@[simp] theorem State.setSpan_lif (s : State) (k : Nat) (x : Span) : (s.setSpan k x).lif = s.lif := rfl
@[simp] theorem State.setSpan_align (s : State) (k : Nat) (x : Span) : (s.setSpan k x).align = s.align := rfl
@[simp] theorem State.setSpan_mp (s : State) (k : Nat) (x : Span) : (s.setSpan k x).mp = s.mp := rfl
@[simp] theorem State.setSpan_cm (s : State) (k : Nat) (x : Span) : (s.setSpan k x).cm = s.cm := rfl
@[simp] theorem State.setSpan_vx (s : State) (k : Nat) (x : Span) : (s.setSpan k x).vx = s.vx := rfl
@[simp] theorem State.setSpan_ls (s : State) (k : Nat) (x : Span) : (s.setSpan k x).ls = s.ls := rfl
@[simp] theorem State.setSpan_le (s : State) (k : Nat) (x : Span) : (s.setSpan k x).le = s.le := rfl
@[simp] theorem State.setSpan_cs (s : State) (k : Nat) (x : Span) : (s.setSpan k x).cs = s.cs := rfl
@[simp] theorem State.setSpan_sp (s : State) (k : Nat) (x : Span) : (s.setSpan k x).sp = s.sp := rfl
@[simp] theorem State.setSpan_pins (s : State) (k : Nat) (x : Span) : (s.setSpan k x).pins = s.pins := rfl
@[simp] theorem State.setSpan_placed (s : State) (k : Nat) (x : Span) : (s.setSpan k x).placed = s.placed := rfl
@[simp] theorem State.setSpan_ev (s : State) (k : Nat) (x : Span) : (s.setSpan k x).ev = s.ev := rfl
@[simp] theorem State.setSpan_pending (s : State) (k : Nat) (x : Span) : (s.setSpan k x).pending = s.pending := rfl

/-! `setLs` writes `le`. -/

@[simp] theorem State.setLs_dev (s : State) (d : Chain) (x : Option LsMsg) : (s.setLs d x).dev = s.dev := rfl
@[simp] theorem State.setLs_time (s : State) (d : Chain) (x : Option LsMsg) : (s.setLs d x).time = s.time := rfl
@[simp] theorem State.setLs_lif (s : State) (d : Chain) (x : Option LsMsg) : (s.setLs d x).lif = s.lif := rfl
@[simp] theorem State.setLs_align (s : State) (d : Chain) (x : Option LsMsg) : (s.setLs d x).align = s.align := rfl
@[simp] theorem State.setLs_mp (s : State) (d : Chain) (x : Option LsMsg) : (s.setLs d x).mp = s.mp := rfl
@[simp] theorem State.setLs_cm (s : State) (d : Chain) (x : Option LsMsg) : (s.setLs d x).cm = s.cm := rfl
@[simp] theorem State.setLs_vx (s : State) (d : Chain) (x : Option LsMsg) : (s.setLs d x).vx = s.vx := rfl
@[simp] theorem State.setLs_ls (s : State) (d : Chain) (x : Option LsMsg) : (s.setLs d x).ls = s.ls := rfl
@[simp] theorem State.setLs_cs (s : State) (d : Chain) (x : Option LsMsg) : (s.setLs d x).cs = s.cs := rfl
@[simp] theorem State.setLs_sp (s : State) (d : Chain) (x : Option LsMsg) : (s.setLs d x).sp = s.sp := rfl
@[simp] theorem State.setLs_lm (s : State) (d : Chain) (x : Option LsMsg) : (s.setLs d x).lm = s.lm := rfl
@[simp] theorem State.setLs_pins (s : State) (d : Chain) (x : Option LsMsg) : (s.setLs d x).pins = s.pins := rfl
@[simp] theorem State.setLs_placed (s : State) (d : Chain) (x : Option LsMsg) : (s.setLs d x).placed = s.placed := rfl
@[simp] theorem State.setLs_ev (s : State) (d : Chain) (x : Option LsMsg) : (s.setLs d x).ev = s.ev := rfl
@[simp] theorem State.setLs_pending (s : State) (d : Chain) (x : Option LsMsg) : (s.setLs d x).pending = s.pending := rfl

end Sys2Proof.Machine
end

