-- ==== Sys2Proof/Laws/Background.lean ====
section
/-! SUPPORT. The background of the state: what only a few commands change (the device state, part time, MP's port,
the queue of commands, the configuration but for a save's requester and its failure counter, the poll table). One
lemma for each operation that leaves all of it alone. -/

namespace Sys2Proof.Machine

/-- The parts of the state that most operations leave alone. -/
structure Background where
  dev : DeviceState
  time : Nat
  mp : MpPort
  pending : List Instr
  settings : Settings
  directory : Vector (Option LocationRecord) 16
  version : Nat
  source : Source
  repairs : List Repair
  stage : SaveStage
  writing : List Byte
  writingVersion : Nat
  lastResult : SaveResult
  lastEnd : Option (Nat × Nat)
  memory : Memory
  table : Vector PollEntry 32

def State.background (s : State) : Background :=
  { dev := s.dev, time := s.time, mp := s.mp, pending := s.pending, settings := s.cs.settings
    directory := s.cs.directory, version := s.cs.version, source := s.cs.source, repairs := s.cs.repairs
    stage := s.cs.stage, writing := s.cs.writing, writingVersion := s.cs.writingVersion
    lastResult := s.cs.lastResult, lastEnd := s.cs.lastEnd, memory := s.cs.memory, table := s.sp.table }

/-- A fold of steps that each leave the background alone leaves it alone. -/
@[simp] theorem foldl_background {α : Type} (f : State → α → State) (xs : List α) (s : State)
    (h : ∀ t x, (f t x).background = t.background) : (xs.foldl f s).background = s.background := by
  induction xs generalizing s with
  | nil => rfl
  | cons x xs ih => simp [ih, h]

@[simp] theorem ite_background (c : Prop) [Decidable c] (s t : State) :
    (if c then s else t).background = if c then s.background else t.background := by
  split <;> rfl

/-- Rebuilding a state with other parts than the background's. -/
@[simp] theorem rebuild_background (t : State) (lif : PerMaster Lif) (align : PerLink Alignment) (cm : CallManager)
    (vx : Crosspoint) (ls : LineSupervisor) (le : PerChain LineEnd) (lm : LineMonitor) (pins : Pins) (placed : Nat)
    (ev : EventMarks) :
    (State.mk t.dev t.time lif align t.mp cm vx ls le t.cs t.sp lm pins placed ev t.pending).background =
      t.background := rfl

theorem repeated_background (f : State → State) (h : ∀ t, (f t).background = t.background) (k : Nat) (s : State) :
    (repeated f k s).background = s.background := by
  induction k generalizing s with
  | zero => rfl
  | succ k ih => simp [repeated, ih, h]

/-- A counter's advance leaves alone what its write does. -/
theorem advance_background (get : State → Nat) (put : Nat → State → State) (s : State)
    (h : ∀ v t, (put v t).background = t.background)
    (hf : ∀ t : State, (t.setFlagAll .counters).background = t.background) :
    (s.advance get put).background = s.background := by
  unfold State.advance
  split
  · rw [hf, h]
  · rfl

@[simp] theorem State.modLif_background (s : State) (m : Master) (f : Lif → Lif) :
    (s.modLif m f).background = s.background := rfl

@[simp] theorem State.modAlign_background (s : State) (l : ControlLink) (f : Alignment → Alignment) :
    (s.modAlign l f).background = s.background := rfl

@[simp] theorem State.modLe_background (s : State) (d : Chain) (f : LineEnd → LineEnd) :
    (s.modLe d f).background = s.background := rfl

@[simp] theorem State.modPost_background (s : State) (p : Nat) (f : Post → Post) :
    (s.modPost p f).background = s.background := rfl

@[simp] theorem State.setMark_background (s : State) (p : Nat) (v : Option Serial) :
    (s.setMark p v).background = s.background := rfl

@[simp] theorem State.setQueue_background (s : State) (q : List Call) :
    (s.setQueue q).background = s.background := rfl

@[simp] theorem State.modCall_background (s : State) (num : Nat) (f : Call → Call) :
    (s.modCall num f).background = s.background := rfl

@[simp] theorem State.setSlot_background (s : State) (d : Chain) (slot : Nat) (v : Option Nat) :
    (s.setSlot d slot v).background = s.background := rfl

@[simp] theorem State.setChannel_background (s : State) (m : Master) (ch : Nat) (v : Option Join) :
    (s.setChannel m ch v).background = s.background := rfl

@[simp] theorem State.setAlerts_background (s : State) (xs : List LineAlert) :
    (s.setAlerts xs).background = s.background := rfl

@[simp] theorem State.setPairs_background (s : State) (xs : List Pair) :
    (s.setPairs xs).background = s.background := rfl

@[simp] theorem State.setAlertTable_background (s : State) (xs : List Alert) :
    (s.setAlertTable xs).background = s.background := rfl

@[simp] theorem State.setSpan_background (s : State) (k : Nat) (x : Span) :
    (s.setSpan k x).background = s.background := rfl

@[simp] theorem State.setLs_background (s : State) (d : Chain) (x : Option LsMsg) :
    (s.setLs d x).background = s.background := rfl

@[simp] theorem State.setFlag_background (m : Master) (f : EventFlag) (s : State) :
    (State.setFlag m f s).background = s.background := by simp [State.setFlag]

@[simp] theorem State.setFlagAll_background (f : EventFlag) (s : State) :
    (State.setFlagAll f s).background = s.background := by simp [State.setFlagAll]

@[simp] theorem State.clearFlag_background (m : Master) (f : EventFlag) (s : State) :
    (State.clearFlag m f s).background = s.background := rfl

@[simp] theorem State.countFrameFail_background (m : Master) (s : State) :
    (State.countFrameFail m s).background = s.background := by
  unfold State.countFrameFail
  exact advance_background _ _ _ (fun _ _ => rfl) (fun _ => by simp)

@[simp] theorem State.countOverrun_background (m : Master) (s : State) :
    (State.countOverrun m s).background = s.background := by
  unfold State.countOverrun
  exact advance_background _ _ _ (fun _ _ => rfl) (fun _ => by simp)

@[simp] theorem State.countLost_background (m : Master) (s : State) :
    (State.countLost m s).background = s.background := by
  unfold State.countLost
  exact advance_background _ _ _ (fun _ _ => rfl) (fun _ => by simp)

@[simp] theorem State.countStatusFail_background (d : Chain) (s : State) :
    (State.countStatusFail d s).background = s.background := by
  unfold State.countStatusFail
  exact advance_background _ _ _ (fun _ _ => rfl) (fun _ => by simp)

@[simp] theorem State.countRespFail_background (d : Chain) (s : State) :
    (State.countRespFail d s).background = s.background := by
  unfold State.countRespFail
  exact advance_background _ _ _ (fun _ _ => rfl) (fun _ => by simp)

@[simp] theorem State.countAbandonedOverflow_background (s : State) :
    (State.countAbandonedOverflow s).background = s.background := by
  unfold State.countAbandonedOverflow
  exact advance_background _ _ _ (fun _ _ => rfl) (fun _ => by simp)

@[simp] theorem State.countAlertDrop_background (s : State) :
    (State.countAlertDrop s).background = s.background := by
  unfold State.countAlertDrop
  exact advance_background _ _ _ (fun _ _ => rfl) (fun _ => by simp)

@[simp] theorem State.countSaveFail_background (s : State) :
    (State.countSaveFail s).background = s.background := by
  unfold State.countSaveFail
  exact advance_background _ _ _ (fun _ _ => rfl) (fun _ => by simp)

@[simp] theorem State.zeroCounters_background (s : State) :
    (State.zeroCounters s).background = s.background := rfl

@[simp] theorem State.queueChanged_background (s : State) :
    (State.queueChanged s).background = s.background := by simp [State.queueChanged]

@[simp] theorem State.alertsChanged_background (s : State) :
    (State.alertsChanged s).background = s.background := by
  unfold State.alertsChanged; simp; rfl

@[simp] theorem State.lineChanged_background (s : State) :
    (State.lineChanged s).background = s.background := by simp [State.lineChanged]

@[simp] theorem State.postsChanged_background (s : State) :
    (State.postsChanged s).background = s.background := by simp [State.postsChanged]

@[simp] theorem State.topologyTold_background (s : State) :
    (State.topologyTold s).background = s.background := rfl

@[simp] theorem State.endEvent_background (s : State) :
    (State.endEvent s).background = s.background := rfl

@[simp] theorem State.enqueue_background (m : Master) (msg : OutMsg) (s : State) :
    (State.enqueue m msg s).background = s.background := by simp [State.enqueue]

@[simp] theorem State.noticeLost_background (m : Master) (s : State) :
    (State.noticeLost m s).background = s.background := by simp [State.noticeLost]

@[simp] theorem State.notice_background (m : Master) (msg : OutMsg) (s : State) :
    (State.notice m msg s).background = s.background := by simp [State.notice]

@[simp] theorem State.noticeAll_background (msg : OutMsg) (s : State) :
    (State.noticeAll msg s).background = s.background := by simp [State.noticeAll]

@[simp] theorem State.respond_background (m : Master) (msg : OutMsg) (s : State) :
    (State.respond m msg s).background = s.background := by simp [State.respond]

@[simp] theorem State.overrunRefusal_background (m : Master) (tag : Byte) (s : State) :
    (State.overrunRefusal m tag s).background = s.background := by
  unfold State.overrunRefusal; simp; split <;> simp

@[simp] theorem State.makeStatus_background (m : Master) (s : State) :
    (State.makeStatus m s).background = s.background := by simp [State.makeStatus]

@[simp] theorem State.computeIdentity_background (p : Nat) (s : State) :
    (State.computeIdentity p s).background = s.background := by simp [State.computeIdentity]

@[simp] theorem State.settleProbes_background (s : State) :
    (State.settleProbes s).background = s.background := by simp [State.settleProbes]

@[simp] theorem State.placeSignal_background (p : Nat) (msg : Signal) (s : State) :
    (State.placeSignal p msg s).background = s.background := by
  unfold State.placeSignal; split <;> rfl

@[simp] theorem State.endAccess_background (m : Master) (r : AccessResult) (s : State) :
    (State.endAccess m r s).background = s.background := by
  unfold State.endAccess; split <;> simp

@[simp] theorem State.senseWithdrawn_background (d : Chain) (s : State) :
    (State.senseWithdrawn d s).background = s.background := rfl

@[simp] theorem State.lineUnread_background (d : Chain) (s : State) :
    (State.lineUnread d s).background = s.background := by
  unfold State.lineUnread; split <;> simp; split <;> simp

@[simp] theorem State.withdrawSense_background (d : Chain) (hit : Nat → Bool) (s : State) :
    (State.withdrawSense d hit s).background = s.background := by
  unfold State.withdrawSense; split <;> simp

@[simp] theorem State.withdrawLine_background (d : Chain) (hit : Nat → Bool) (s : State) :
    (State.withdrawLine d hit s).background = s.background := by
  unfold State.withdrawLine; split <;> simp

@[simp] theorem State.withdrawAccesses_background (d : Chain) (hit : Nat → Bool) (s : State) :
    (State.withdrawAccesses d hit s).background = s.background := by simp [State.withdrawAccesses]

@[simp] theorem State.withdrawFor_background (d : Chain) (p : Nat) (s : State) :
    (State.withdrawFor d p s).background = s.background := by simp [State.withdrawFor]

@[simp] theorem State.emptyQueue_background (d : Chain) (s : State) :
    (State.emptyQueue d s).background = s.background := by simp [State.emptyQueue]

@[simp] theorem State.transferQueue_background (p : Nat) (s : State) :
    (State.transferQueue p s).background = s.background := by
  unfold State.transferQueue; simp; rfl

@[simp] theorem State.raiseAlert_background (k : LineAlertKind) (at_ : AlertPlace) (s : State) :
    (State.raiseAlert k at_ s).background = s.background := by simp [State.raiseAlert]

@[simp] theorem State.clearAlerts_background (k : LineAlertKind) (hit : AlertPlace → Bool) (s : State) :
    (State.clearAlerts k hit s).background = s.background := by simp [State.clearAlerts]

@[simp] theorem State.clearAlert_background (k : LineAlertKind) (at_ : AlertPlace) (s : State) :
    (State.clearAlert k at_ s).background = s.background := by simp [State.clearAlert]

@[simp] theorem State.placeBreak_background (first last : Nat) (s : State) :
    (State.placeBreak first last s).background = s.background := rfl

@[simp] theorem State.recomputeBreak_background (s : State) :
    (State.recomputeBreak s).background = s.background := by
  unfold State.recomputeBreak; split <;> simp

@[simp] theorem State.setBreak_background (s : State) :
    (State.setBreak s).background = s.background := by
  unfold State.setBreak; split <;> simp

@[simp] theorem State.clearBreak_background (s : State) :
    (State.clearBreak s).background = s.background := by
  unfold State.clearBreak; split <;> simp

@[simp] theorem State.setPending_background (v : Bool) (s : State) :
    (State.setPending v s).background = s.background := by simp [State.setPending]

@[simp] theorem State.dropClaim_background (s : State) :
    (State.dropClaim s).background = s.background := rfl

@[simp] theorem State.recomputeTopology_background (rejoin : Bool) (s : State) :
    (State.recomputeTopology rejoin s).background = s.background := by simp [State.recomputeTopology]

@[simp] theorem State.measureRequests_background (d : Chain) (entered : Bool) (s : State) :
    (State.measureRequests d entered s).background = s.background := by simp [State.measureRequests]

@[simp] theorem State.quietPort_background (d : Chain) (s : State) :
    (State.quietPort d s).background = s.background := rfl

@[simp] theorem State.leaveState_background (d : Chain) (new : LineState) (s : State) :
    (State.leaveState d new s).background = s.background := by simp [State.leaveState]

@[simp] theorem State.startState_background (d : Chain) (new : LineState) (s : State) :
    (State.startState d new s).background = s.background := by
  unfold State.startState; split <;> simp

@[simp] theorem State.enterState_background (d : Chain) (new : LineState) (s : State) :
    (State.enterState d new s).background = s.background := by simp [State.enterState]

@[simp] theorem State.unusable_background (p : Nat) (s : State) :
    (State.unusable p s).background = s.background := rfl

@[simp] theorem State.boundaryChanged_background (b0 r0 : Nat) (s : State) :
    (State.boundaryChanged b0 r0 s).background = s.background := by simp [State.boundaryChanged]

@[simp] theorem State.makeLost_background (p : Nat) (s : State) :
    (State.makeLost p s).background = s.background := rfl

@[simp] theorem State.placeClaim_background (s : State) :
    (State.placeClaim s).background = s.background := by simp [State.placeClaim]

@[simp] theorem State.rejoinStart_background (s : State) :
    (State.rejoinStart s).background = s.background := by simp [State.rejoinStart]

@[simp] theorem State.rejoinIfFreed_background (s : State) :
    (State.rejoinIfFreed s).background = s.background := by simp [State.rejoinIfFreed]

@[simp] theorem State.repaired_background (s : State) :
    (State.repaired s).background = s.background := by simp [State.repaired]

@[simp] theorem State.allocate_background (num : Nat) (d : Chain) (slot : Nat) (m : Master) (ch : Nat) (s : State) :
    (State.allocate num d slot m ch s).background = s.background := rfl

@[simp] theorem State.freeVoice_background (num : Nat) (s : State) :
    (State.freeVoice num s).background = s.background := rfl

@[simp] theorem State.moveVoice_background (num : Nat) (m : Master) (ch : Nat) (d : Chain) (slot : Nat) (s : State) :
    (State.moveVoice num m ch d slot s).background = s.background := rfl

@[simp] theorem State.updateTo_background (c : Call) (cause : UpdateCause) (whom : Master → Bool) (s : State) :
    (State.updateTo c cause whom s).background = s.background := by simp [State.updateTo]

@[simp] theorem State.updateCall_background (num : Nat) (cause : UpdateCause) (s : State) :
    (State.updateCall num cause s).background = s.background := by
  unfold State.updateCall; split <;> simp

@[simp] theorem State.offerNotices_background (old : PerMaster Bool) (c : Call) (s : State) :
    (State.offerNotices old c s).background = s.background := by simp [State.offerNotices]

@[simp] theorem State.reoffer_background (entry : Bool) (num : Nat) (s : State) :
    (State.reoffer entry num s).background = s.background := by
  unfold State.reoffer; split <;> simp

@[simp] theorem State.refreshOffers_background (num : Nat) (s : State) :
    (State.refreshOffers num s).background = s.background := by simp [State.refreshOffers]

@[simp] theorem State.refreshAllOffers_background (s : State) :
    (State.refreshAllOffers s).background = s.background := by simp [State.refreshAllOffers]

@[simp] theorem State.withdrawOffers_background (num : Nat) (old : PerMaster Bool) (reason : WithdrawReason) (but : Option Master) (s : State) :
    (State.withdrawOffers num old reason but s).background = s.background := by simp [State.withdrawOffers]

@[simp] theorem State.enterWaiting_background (num : Nat) (f : Call → Call) (s : State) :
    (State.enterWaiting num f s).background = s.background := by simp [State.enterWaiting]

@[simp] theorem State.addAbandoned_background (x : Abandoned) (s : State) :
    (State.addAbandoned x s).background = s.background := by
  unfold State.addAbandoned
  split <;> simp

@[simp] theorem State.releasePost_background (c : Call) (reason : EndReason) (silent : Bool) (s : State) :
    (State.releasePost c reason silent s).background = s.background := by
  unfold State.releasePost; simp; split <;> simp

@[simp] theorem State.endCall_background (num : Nat) (reason : EndReason) (silent : Bool) (s : State) :
    (State.endCall num reason silent s).background = s.background := by
  unfold State.endCall; split <;> simp

@[simp] theorem State.createCall_background (p : Nat) (k : CallClass) (hookOff : Bool) (s : State) :
    (State.createCall p k hookOff s).background = s.background := by simp [State.createCall]

@[simp] theorem State.escalate_background (num : Nat) (s : State) :
    (State.escalate num s).background = s.background := by
  unfold State.escalate; split <;> simp; split <;> simp

@[simp] theorem State.escalateIfDue_background (num : Nat) (s : State) :
    (State.escalateIfDue num s).background = s.background := by
  unfold State.escalateIfDue; split <;> simp

@[simp] theorem State.upgrade_background (num : Nat) (k : CallClass) (s : State) :
    (State.upgrade num k s).background = s.background := by
  unfold State.upgrade; split <;> simp

@[simp] theorem State.releaseStage_background (num p : Nat) (s : State) :
    (State.releaseStage num p s).background = s.background := by simp [State.releaseStage]

@[simp] theorem State.enterClearing_background (num : Nat) (s : State) :
    (State.enterClearing num s).background = s.background := by
  unfold State.enterClearing; split <;> simp

@[simp] theorem State.connectAlerting_background (num : Nat) (s : State) :
    (State.connectAlerting num s).background = s.background := by
  unfold State.connectAlerting; split <;> simp; split <;> simp

@[simp] theorem State.hookWord_background (num : Nat) (off : Bool) (s : State) :
    (State.hookWord num off s).background = s.background := by
  unfold State.hookWord; split <;> simp; split <;> simp

@[simp] theorem State.requestWord_background (num : Nat) (req : Request) (s : State) :
    (State.requestWord num req s).background = s.background := by
  unfold State.requestWord; split <;> simp

@[simp] theorem State.callWord_background (p : Nat) (w : StatusWord) (s : State) :
    (State.callWord p w s).background = s.background := by
  unfold State.callWord; split <;> split <;> simp

@[simp] theorem State.callAck_background (p : Nat) (msg : Signal) (s : State) :
    (State.callAck p msg s).background = s.background := by
  unfold State.callAck
  repeat' split
  all_goals first | (simp; done) | (simp; split <;> simp)

@[simp] theorem State.sever_background (num : Nat) (s : State) :
    (State.sever num s).background = s.background := by
  unfold State.sever; split <;> simp; split <;> simp

@[simp] theorem State.callLost_background (p : Nat) (s : State) :
    (State.callLost p s).background = s.background := by
  unfold State.callLost; repeat' split
  all_goals simp

@[simp] theorem State.resume_background (num : Nat) (s : State) :
    (State.resume num s).background = s.background := by simp [State.resume]

@[simp] theorem State.markServed_background (p : Nat) (serial : Serial) (s : State) :
    (State.markServed p serial s).background = s.background := by
  unfold State.markServed; split <;> simp

@[simp] theorem State.callServed_background (p : Nat) (serial : Serial) (s : State) :
    (State.callServed p serial s).background = s.background := by
  unfold State.callServed; split <;> simp

@[simp] theorem State.moveSlot_background (c : Call) (slot : Nat) (s : State) :
    (State.moveSlot c slot s).background = s.background := by
  unfold State.moveSlot; split <;> simp

@[simp] theorem State.callMoved_background (p : Nat) (s : State) :
    (State.callMoved p s).background = s.background := by
  unfold State.callMoved; split <;> simp; split <;> simp

@[simp] theorem State.changeCallAt_background (p : Nat) (f : Call → Call) (cause : UpdateCause) (s : State) :
    (State.changeCallAt p f cause s).background = s.background := by
  unfold State.changeCallAt; split <;> simp

@[simp] theorem State.callDegraded_background (p : Nat) (v : Bool) (s : State) :
    (State.callDegraded p v s).background = s.background := by
  unfold State.callDegraded; split <;> simp

@[simp] theorem State.callCondition_background (p : Nat) (v : Option Severity) (s : State) :
    (State.callCondition p v s).background = s.background := by simp [State.callCondition]

@[simp] theorem State.renewSnapshot_background (p : Nat) (s : State) :
    (State.renewSnapshot p s).background = s.background := by simp [State.renewSnapshot]

@[simp] theorem State.modPair_background (e p : Nat) (f : Pair → Pair) (s : State) :
    (State.modPair e p f s).background = s.background := rfl

@[simp] theorem State.storeValue_background (d : Chain) (p sensor v : Nat) (s : State) :
    (State.storeValue d p sensor v s).background = s.background := by
  unfold State.storeValue; split <;> rfl

@[simp] theorem State.computeCondition_background (p : Nat) (s : State) :
    (State.computeCondition p s).background = s.background := by
  unfold State.computeCondition; simp; intro _; rfl

@[simp] theorem State.reportAlert_background (cause : ReportCause) (e p : Nat) (severity : Severity) (code first value : Nat) (s : State) :
    (State.reportAlert cause e p severity code first value s).background = s.background := by simp [State.reportAlert]

@[simp] theorem State.addAlert_background (e p v : Nat) (s : State) :
    (State.addAlert e p v s).background = s.background := by simp [State.addAlert]

@[simp] theorem State.removeAlert_background (a : Alert) (cause : ReportCause) (value : Nat) (s : State) :
    (State.removeAlert a cause value s).background = s.background := by simp [State.removeAlert]

@[simp] theorem State.raisePairAlert_background (e p v : Nat) (s : State) :
    (State.raisePairAlert e p v s).background = s.background := by
  unfold State.raisePairAlert; simp; split <;> simp

@[simp] theorem State.setStale_background (e p : Nat) (v : Bool) (s : State) :
    (State.setStale e p v s).background = s.background := by
  unfold State.setStale; split <;> simp

@[simp] theorem State.staleAll_background (p : Nat) (s : State) :
    (State.staleAll p s).background = s.background := by simp [State.staleAll]

@[simp] theorem State.updateAlert_background (e p v : Nat) (s : State) :
    (State.updateAlert e p v s).background = s.background := by simp [State.updateAlert]

@[simp] theorem State.judge_background (e p sensor v : Nat) (s : State) :
    (State.judge e p sensor v s).background = s.background := by
  unfold State.judge; split <;> simp; split <;> simp

@[simp] theorem State.deferPair_background (e p : Nat) (s : State) :
    (State.deferPair e p s).background = s.background := rfl

@[simp] theorem State.senseClean_background (d : Chain) (v : Nat) (s : State) :
    (State.senseClean d v s).background = s.background := by
  unfold State.senseClean; split <;> simp

@[simp] theorem State.senseFailed_background (d : Chain) (s : State) :
    (State.senseFailed d s).background = s.background := by
  unfold State.senseFailed; split <;> simp

@[simp] theorem State.skipPairs_background (s : State) :
    (State.skipPairs s).background = s.background := rfl

@[simp] theorem State.placeReading_background (d : Chain) (s : State) :
    (State.placeReading d s).background = s.background := by
  unfold State.placeReading; repeat' split
  all_goals rfl

@[simp] theorem State.spSettle_background (s : State) :
    (State.spSettle s).background = s.background := by simp [State.spSettle]

@[simp] theorem State.duePairs_background (p : Nat) (s : State) :
    (State.duePairs p s).background = s.background := rfl

@[simp] theorem State.formPairs_background (e : Nat) (s : State) :
    (State.formPairs e s).background = s.background := rfl

@[simp] theorem State.voidReadings_background (e : Nat) (s : State) :
    (State.voidReadings e s).background = s.background := rfl

@[simp] theorem State.applyPoll_background (e : Nat) (s : State) :
    (State.applyPoll e s).background = s.background := by simp [State.applyPoll]

@[simp] theorem State.clearAlertTable_background (s : State) :
    (State.clearAlertTable s).background = s.background := by simp [State.clearAlertTable]

@[simp] theorem State.sampled_background (c : ConverterChannel) (s : State) :
    (State.sampled c s).background = s.background := rfl

@[simp] theorem State.roundSample_background (c : ConverterChannel) (s : State) :
    (State.roundSample c s).background = s.background := rfl

@[simp] theorem State.spanChanged_background (k : Nat) (old new : Span) (s : State) :
    (State.spanChanged k old new s).background = s.background := by simp [State.spanChanged]

@[simp] theorem State.invalidSpan_background (r : Round) (k : Nat) (reason : InvalidReason) (s : State) :
    (State.invalidSpan r k reason s).background = s.background := rfl

@[simp] theorem State.computeSpan_background (r : Round) (k : Nat) (s : State) :
    (State.computeSpan r k s).background = s.background := by
  unfold State.computeSpan; split <;> simp; split <;> simp

@[simp] theorem State.computeLeakage_background (r : Round) (s : State) :
    (State.computeLeakage r s).background = s.background := by simp [State.computeLeakage]

@[simp] theorem State.enterMode_background (m : MeasureMode) (s : State) :
    (State.enterMode m s).background = s.background := rfl

@[simp] theorem State.afterRound_background (s : State) :
    (State.afterRound s).background = s.background := by
  unfold State.afterRound; split <;> simp

@[simp] theorem State.startRound_background (d : Chain) (k : RoundKind) (s : State) :
    (State.startRound d k s).background = s.background := by simp [State.startRound]

@[simp] theorem State.takeRound_background (d : Chain) (k : RoundKind) (s : State) :
    (State.takeRound d k s).background = s.background := by
  unfold State.takeRound; split <;> simp

@[simp] theorem State.placeRead_background (r : Round) (p : Nat) (s : State) :
    (State.placeRead r p s).background = s.background := by simp [State.placeRead]

@[simp] theorem State.completeRound_background (r : Round) (s : State) :
    (State.completeRound r s).background = s.background := by
  have h := foldl_background (fun t k => t.invalidSpan r k .skipped) r.spans s fun t k => rfl
  simp [State.completeRound, h]

@[simp] theorem State.lmLook_background (k : Nat) (s : State) : (s.lmLook k).background = s.background := by
  induction k generalizing s with
  | zero => rfl
  | succ k ih =>
    unfold State.lmLook
    dsimp only
    repeat' split
    all_goals first | rfl | simp [ih]

@[simp] theorem State.abortRound_background (s : State) :
    (State.abortRound s).background = s.background := by
  unfold State.abortRound; split <;> simp; split <;> simp

@[simp] theorem State.lmReact_background (s : State) :
    (State.lmReact s).background = s.background := by simp [State.lmReact]

@[simp] theorem State.lineRead_background (d : Chain) (p volt cur : Nat) (s : State) :
    (State.lineRead d p volt cur s).background = s.background := by
  unfold State.lineRead; simp; split <;> simp

@[simp] theorem State.cycleExpires_background (s : State) :
    (State.cycleExpires s).background = s.background := by
  unfold State.cycleExpires; split <;> rfl

@[simp] theorem State.focusExpires_background (s : State) :
    (State.focusExpires s).background = s.background := by
  unfold State.focusExpires; split <;> rfl

@[simp] theorem State.intervalChanged_background (s : State) :
    (State.intervalChanged s).background = s.background := by
  unfold State.intervalChanged; split <;> rfl

@[simp] theorem State.clearMeasurement_background (s : State) :
    (State.clearMeasurement s).background = s.background := by simp [State.clearMeasurement]

@[simp] theorem State.settleCalls_background (s : State) :
    (State.settleCalls s).background = s.background := by simp [State.settleCalls]

@[simp] theorem State.settleLine_background (s : State) :
    (State.settleLine s).background = s.background := by simp [State.settleLine]

@[simp] theorem State.orphanCall_background (num : Nat) (s : State) :
    (State.orphanCall num s).background = s.background := by
  unfold State.orphanCall; split <;> simp; split <;> simp

@[simp] theorem State.orphanWork_background (m : Master) (s : State) :
    (State.orphanWork m s).background = s.background := rfl

@[simp] theorem State.goDown_background (m : Master) (s : State) :
    (State.goDown m s).background = s.background := by simp [State.goDown]

@[simp] theorem State.startAlignTimer_background (m : Master) (s : State) :
    (State.startAlignTimer m s).background = s.background := by
  unfold State.startAlignTimer; split <;> rfl

@[simp] theorem State.comeUp_background (m : Master) (s : State) :
    (State.comeUp m s).background = s.background := by simp [State.comeUp]

@[simp] theorem State.take_background (m : Master) (s : State) :
    (State.take m s).background = s.background := by simp [State.take]

@[simp] theorem State.setRx_background (m : Master) (q : List Message) (s : State) :
    (State.setRx m q s).background = s.background := rfl

@[simp] theorem State.receive_background (m : Master) (msg : Message) (s : State) :
    (State.receive m msg s).background = s.background := by simp [State.receive]

@[simp] theorem State.refuse_background (m : Master) (tag : Byte) (r : Reason) (s : State) :
    (State.refuse m tag r s).background = s.background := by simp [State.refuse]

@[simp] theorem State.answerDone_background (m : Master) (tag : Byte) (x : Done) (s : State) :
    (State.answerDone m tag x s).background = s.background := by simp [State.answerDone]

@[simp] theorem State.windowChanged_background (m : Master) (s : State) :
    (State.windowChanged m s).background = s.background := by
  unfold State.windowChanged; simp; split <;> simp

@[simp] theorem State.maskChanged_background (m : Master) (old : BitVec 9) (s : State) :
    (State.maskChanged m old s).background = s.background := by simp [State.maskChanged]

@[simp] theorem State.sendHead_background (m : Master) (s : State) :
    (State.sendHead m s).background = s.background := by simp [State.sendHead]

@[simp] theorem State.skipTarget_background (p : Nat) (s : State) :
    (State.skipTarget p s).background = s.background := by
  unfold State.skipTarget; split <;> rfl

@[simp] theorem State.quarantineEffects_background (p : Nat) (s : State) :
    (State.quarantineEffects p s).background = s.background := by
  unfold State.quarantineEffects; simp; split <;> simp

@[simp] theorem State.quarantine_background (p : Nat) (s : State) :
    (State.quarantine p s).background = s.background := by simp [State.quarantine]

@[simp] theorem State.reactivate_background (p : Nat) (s : State) :
    (State.reactivate p s).background = s.background := by simp [State.reactivate]

@[simp] theorem State.scoreFailed_background (d : Chain) (p : Nat) (s : State) :
    (State.scoreFailed d p s).background = s.background := by simp [State.scoreFailed]

@[simp] theorem State.scoreClean_background (d : Chain) (p : Nat) (s : State) :
    (State.scoreClean d p s).background = s.background := by simp [State.scoreClean]

@[simp] theorem State.scored_background (d : Chain) (p : Nat) (clean : Bool) (s : State) :
    (State.scored d p clean s).background = s.background := by simp [State.scored]

@[simp] theorem State.reportLost_background (d : Chain) (p : Nat) (s : State) :
    (State.reportLost d p s).background = s.background := by simp [State.reportLost]

@[simp] theorem State.giveUpElsewhere_background (d : Chain) (p : Nat) (s : State) :
    (State.giveUpElsewhere d p s).background = s.background := by simp [State.giveUpElsewhere]

@[simp] theorem State.servePost_background (d : Chain) (p : Nat) (serial : Serial) (kind : Byte) (s : State) :
    (State.servePost d p serial kind s).background = s.background := by simp [State.servePost]

@[simp] theorem State.movePost_background (p : Nat) (serial : Serial) (kind : Byte) (s : State) :
    (State.movePost p serial kind s).background = s.background := by simp [State.movePost]

@[simp] theorem State.handleBreak_background (d : Chain) (part : List Nat) (s : State) :
    (State.handleBreak d part s).background = s.background := by
  unfold State.handleBreak; split <;> simp

@[simp] theorem State.stopRejoin_background (s : State) :
    (State.stopRejoin s).background = s.background := by simp [State.stopRejoin]

@[simp] theorem State.losePosts_background (d : Chain) (lost : List Nat) (s : State) :
    (State.losePosts d lost s).background = s.background := by
  have h := foldl_background (fun t p => t.makeLost p) lost s fun t p => rfl
  simp [State.losePosts, h]

@[simp] theorem State.loss_background (d : Chain) (missing : List Nat) (s : State) :
    (State.loss d missing s).background = s.background := by simp [State.loss]

@[simp] theorem State.takeWord_background (p : Nat) (w : StatusWord) (s : State) :
    (State.takeWord p w s).background = s.background := by simp [State.takeWord]

@[simp] theorem State.takeNoWord_background (p : Nat) (s : State) :
    (State.takeNoWord p s).background = s.background := rfl

@[simp] theorem State.takeStatus_background (d : Chain) (frame : List Byte) (p : Nat) (s : State) :
    (State.takeStatus d frame p s).background = s.background := by
  unfold State.takeStatus; split <;> simp

@[simp] theorem State.takePosition_background (d : Chain) (frame : List Byte) (p : Nat) (s : State) :
    (State.takePosition d frame p s).background = s.background := by
  unfold State.takePosition; dsimp only; split <;> simp

@[simp] theorem State.takeWords_background (d : Chain) (frame : List Byte) (s : State) :
    (State.takeWords d frame s).background = s.background := by simp [State.takeWords]

@[simp] theorem State.settleSplit_background (s : State) :
    (State.settleSplit s).background = s.background := by simp [State.settleSplit]

@[simp] theorem State.checkLength_background (s : State) :
    (State.checkLength s).background = s.background := by simp [State.checkLength]

@[simp] theorem State.forwardRunEnds_background (held : Option Nat) (s : State) :
    (State.forwardRunEnds held s).background = s.background := by
  unfold State.forwardRunEnds
  dsimp only
  repeat' split
  all_goals simp

@[simp] theorem State.returnRunEnds_background (held : Option Nat) (s : State) :
    (State.returnRunEnds held s).background = s.background := by simp [State.returnRunEnds]

@[simp] theorem State.runEnds_background (d : Chain) (held : Option Nat) (s : State) :
    (State.runEnds d held s).background = s.background := by
  unfold State.runEnds; split <;> simp

@[simp] theorem State.startRun_background (d : Chain) (p : Nat) (s : State) :
    (State.startRun d p s).background = s.background := by simp [State.startRun]

@[simp] theorem State.judgeDiscovery_background (d : Chain) (w : Waiting) (resp : Option Resp) (s : State) :
    (State.judgeDiscovery d w resp s).background = s.background := by
  unfold State.judgeDiscovery; split <;> simp

@[simp] theorem State.claimOn_background (s : State) :
    (State.claimOn s).background = s.background := by simp [State.claimOn]

@[simp] theorem State.claimed_background (p : Nat) (serial : Serial) (kind : Byte) (s : State) :
    (State.claimed p serial kind s).background = s.background := by simp [State.claimed]

@[simp] theorem State.lsResult_background (d : Chain) (kind : LsKind) (p : Nat) (resp : Option Resp) (s : State) :
    (State.lsResult d kind p resp s).background = s.background := by
  unfold State.lsResult; split <;> simp

@[simp] theorem State.judgeLs_background (d : Chain) (kind : LsKind) (p : Nat) (resp : Option Resp) (s : State) :
    (State.judgeLs d kind p resp s).background = s.background := by
  unfold State.judgeLs; split <;> simp

@[simp] theorem State.judgeSignal_background (d : Chain) (p : Nat) (msg : Signal) (clean : Bool) (s : State) :
    (State.judgeSignal d p msg clean s).background = s.background := by simp [State.judgeSignal]

@[simp] theorem State.judgeAccess_background (d : Chain) (m : Master) (order : Nat) (resp : Option Resp) (s : State) :
    (State.judgeAccess d m order resp s).background = s.background := by
  unfold State.judgeAccess; repeat' split
  all_goals simp

@[simp] theorem State.judgeProbe_background (d : Chain) (p : Nat) (clean : Bool) (s : State) :
    (State.judgeProbe d p clean s).background = s.background := by simp [State.judgeProbe]

@[simp] theorem State.judgeSense_background (d : Chain) (resp : Option Resp) (s : State) :
    (State.judgeSense d resp s).background = s.background := by
  unfold State.judgeSense; split <;> simp

@[simp] theorem State.judgeLine_background (d : Chain) (resp : Option Resp) (s : State) :
    (State.judgeLine d resp s).background = s.background := by
  unfold State.judgeLine; split <;> simp

@[simp] theorem State.storeAnswer_background (d : Chain) (m : Sent) (resp : Option Resp) (s : State) :
    (State.storeAnswer d m resp s).background = s.background := by
  unfold State.storeAnswer; split <;> simp

@[simp] theorem State.judgeSent_background (d : Chain) (m : Sent) (resp : Option Resp) (s : State) :
    (State.judgeSent d m resp s).background = s.background := by
  unfold State.judgeSent; dsimp only; repeat' split
  all_goals simp

@[simp] theorem State.advanceClocks_background (d : Chain) (ran : List (Master × Nat)) (s : State) :
    (State.advanceClocks d ran s).background = s.background := by
  unfold State.advanceClocks
  exact foldl_background _ _ _ (fun _ _ => rfl)

@[simp] theorem State.takeResponse_background (d : Chain) (m : Sent) (frame : List Byte) (ran : List (Master × Nat))
    (s : State) : (State.takeResponse d m frame ran s).background = s.background := by simp [State.takeResponse]

@[simp] theorem State.takeLoss_background (d : Chain) (s : State) :
    (State.takeLoss d s).background = s.background := by
  unfold State.takeLoss; dsimp only; split <;> simp

@[simp] theorem State.upstream_background (d : Chain) (m : Sent) (frame : List Byte) (s : State) :
    (State.upstream d m frame s).background = s.background := by simp [State.upstream]

@[simp] theorem State.afterFailure_background (d : Chain) (s : State) :
    (State.afterFailure d s).background = s.background := by
  unfold State.afterFailure; split <;> simp

@[simp] theorem State.lineFails_background (d : Chain) (s : State) :
    (State.lineFails d s).background = s.background := by simp [State.lineFails]

@[simp] theorem State.setWorkingMode_background (s : State) :
    (State.setWorkingMode s).background = s.background := by
  unfold State.setWorkingMode; simp; split <;> simp

@[simp] theorem State.startLine_background (s : State) :
    (State.startLine s).background = s.background := by simp [State.startLine]

@[simp] theorem State.goOff_background (d : Chain) (s : State) :
    (State.goOff d s).background = s.background := by simp [State.goOff]

@[simp] theorem State.restartPost_background (p : Nat) (s : State) :
    (State.restartPost p s).background = s.background := by
  unfold State.restartPost; split <;> simp

@[simp] theorem State.restartLine_background (s : State) :
    (State.restartLine s).background = s.background := by simp [State.restartLine]

@[simp] theorem State.settleExpires_background (d : Chain) (s : State) :
    (State.settleExpires d s).background = s.background := by
  unfold State.settleExpires; split <;> simp

@[simp] theorem State.refindExpires_background (d : Chain) (s : State) :
    (State.refindExpires d s).background = s.background := by
  unfold State.refindExpires
  dsimp only
  repeat' split
  all_goals simp

@[simp] theorem State.ageExpires_background (s : State) :
    (State.ageExpires s).background = s.background := by simp [State.ageExpires]

@[simp] theorem State.sendFrame_background (l : ControlLink) (s : State) :
    (State.sendFrame l s).background = s.background := rfl

@[simp] theorem State.sendDown_background (d : Chain) (s : State) :
    (State.sendDown d s).background = s.background := by simp [State.sendDown]

@[simp] theorem State.connect_background (num : Nat) (m : Master) (d : Chain) (slot ch : Nat) (p : Nat) (s : State) :
    (State.connect num m d slot ch p s).background = s.background := by simp [State.connect]

@[simp] theorem State.answerCall_background (c : Call) (m : Master) (tag : Byte) (d : Chain) (slot ch : Nat) (s : State) :
    (State.answerCall c m tag d slot ch s).background = s.background := by simp [State.answerCall]

@[simp] theorem State.answerNoSlot_background (c : Call) (m : Master) (tag : Byte) (s : State) :
    (State.answerNoSlot c m tag s).background = s.background := by
  unfold State.answerNoSlot; simp; split <;> simp

@[simp] theorem State.answerFor_background (c : Call) (m : Master) (tag : Byte) (ch : Nat) (s : State) :
    (State.answerFor c m tag ch s).background = s.background := by
  unfold State.answerFor; simp; split <;> simp

@[simp] theorem State.holdCall_background (c : Call) (s : State) :
    (State.holdCall c s).background = s.background := by simp [State.holdCall]

@[simp] theorem State.retrieveFor_background (c : Call) (m : Master) (tag : Byte) (ch : Nat) (s : State) :
    (State.retrieveFor c m tag ch s).background = s.background := by
  unfold State.retrieveFor; simp; split <;> simp

@[simp] theorem State.transferCall_background (c : Call) (target : Master) (s : State) :
    (State.transferCall c target s).background = s.background := by simp [State.transferCall]

@[simp] theorem State.transferFor_background (c : Call) (m : Master) (tag : Byte) (target : Master) (s : State) :
    (State.transferFor c m tag target s).background = s.background := by simp [State.transferFor]

@[simp] theorem State.clearFor_background (c : Call) (m : Master) (tag : Byte) (s : State) :
    (State.clearFor c m tag s).background = s.background := by
  unfold State.clearFor; split <;> simp

@[simp] theorem State.placeCallout_background (p : Nat) (m : Master) (tag : Byte) (d : Chain) (slot ch : Nat) (s : State) :
    (State.placeCallout p m tag d slot ch s).background = s.background := by simp [State.placeCallout]

@[simp] theorem State.calloutFor_background (m : Master) (tag : Byte) (p ch : Nat) (s : State) :
    (State.calloutFor m tag p ch s).background = s.background := by
  unfold State.calloutFor; repeat' split
  all_goals simp

@[simp] theorem State.endPreference_background (num : Nat) (s : State) :
    (State.endPreference num s).background = s.background := by simp [State.endPreference]

@[simp] theorem State.remind_background (num : Nat) (s : State) :
    (State.remind num s).background = s.background := by
  unfold State.remind; split <;> simp

@[simp] theorem State.applySetting_background (old : Settings) (n : SettingName) (m : Master) (s : State) :
    (State.applySetting old n m s).background = s.background := by
  unfold State.applySetting; split <;> simp

@[simp] theorem State.placeAccess_background (m : Master) (tag : Byte) (p item : Nat) (write : Option Nat) (d : Chain) (s : State) :
    (State.placeAccess m tag p item write d s).background = s.background := by simp [State.placeAccess]

@[simp] theorem State.accessFor_background (m : Master) (tag : Byte) (p item : Nat) (write : Option Nat) (s : State) :
    (State.accessFor m tag p item write s).background = s.background := by
  unfold State.accessFor; simp; split <;> simp

@[simp] theorem State.sampleCurrent_background (d : Chain) (s : State) :
    (State.sampleCurrent d s).background = s.background := by simp [State.sampleCurrent]

end Sys2Proof.Machine
end

