-- ==== Sys2Proof/Laws/Links.lean ====
section
/-! SUPPORT. What the operations on flags, notices and responses do, the take of a request and the arrival of
messages: one lemma for each says all of it, so that no later proof unfolds them. -/

namespace Sys2Proof.Machine

/-! ### Everything but the link interfaces -/

/-- The state without its link interfaces. -/
def State.sansLif (s : State) : State := { s with lif := ⟨{}, {}, {}⟩ }

theorem sansLif_put {s t : State} (h : t.sansLif = s.sansLif) : { t with lif := s.lif } = s := by
  exact congrArg (fun x : State => { x with lif := s.lif }) h

theorem sansLif_cm {s t : State} (h : t.sansLif = s.sansLif) : t.cm = s.cm := congrArg (·.cm) h
theorem sansLif_ls {s t : State} (h : t.sansLif = s.sansLif) : t.ls = s.ls := congrArg (·.ls) h
theorem sansLif_le {s t : State} (h : t.sansLif = s.sansLif) : t.le = s.le := congrArg (·.le) h
theorem sansLif_lm {s t : State} (h : t.sansLif = s.sansLif) : t.lm = s.lm := congrArg (·.lm) h
theorem sansLif_cs {s t : State} (h : t.sansLif = s.sansLif) : t.cs = s.cs := congrArg (·.cs) h
theorem sansLif_sp {s t : State} (h : t.sansLif = s.sansLif) : t.sp = s.sp := congrArg (·.sp) h
theorem sansLif_vx {s t : State} (h : t.sansLif = s.sansLif) : t.vx = s.vx := congrArg (·.vx) h
theorem sansLif_ev {s t : State} (h : t.sansLif = s.sansLif) : t.ev = s.ev := congrArg (·.ev) h
theorem sansLif_time {s t : State} (h : t.sansLif = s.sansLif) : t.time = s.time := congrArg (·.time) h
theorem sansLif_dev {s t : State} (h : t.sansLif = s.sansLif) : t.dev = s.dev := congrArg (·.dev) h

@[simp] theorem State.modLif_sansLif (s : State) (m : Master) (f : Lif → Lif) :
    (s.modLif m f).sansLif = s.sansLif := rfl

theorem foldl_sansLif {α : Type} (f : State → α → State) (xs : List α) (s : State)
    (h : ∀ t x, (f t x).sansLif = t.sansLif) : (xs.foldl f s).sansLif = s.sansLif := by
  induction xs generalizing s with
  | nil => rfl
  | cons x xs ih => simp [ih, h]

/-! ### Flags (R190, R191) -/

/-- A link interface without its flags and the STATUS they make due. -/
def Lif.still (l : Lif) : Lif := { l with flags := 0, statusDue := false }

@[simp] theorem State.setFlag_sansLif (s : State) (m : Master) (f : EventFlag) :
    (s.setFlag m f).sansLif = s.sansLif := by
  unfold State.setFlag; split <;> simp

theorem State.setFlag_still (s : State) (m k : Master) (f : EventFlag) :
    ((s.setFlag m f).lifOf k).still = (s.lifOf k).still := by
  unfold State.setFlag
  split
  · rfl
  · by_cases h : k = m
    · subst h; simp [Lif.still]
    · rw [State.modLif_lifOf_other _ _ _ _ h]

theorem bit_of_flag (f : EventFlag) (x : BitVec 9) : (x ||| f.single).getLsbD f.bit = true := by
  cases f <;> simp [EventFlag.single, EventFlag.bit]

theorem State.setFlag_sets (s : State) (m : Master) (f : EventFlag) : (s.setFlag m f).flag m f = true := by
  unfold State.setFlag
  split
  · assumption
  · simpa [State.flag] using bit_of_flag f (s.lifOf m).flags

theorem State.setFlag_keeps (s : State) (m k : Master) (f g : EventFlag) (h : s.flag k g = true) :
    (s.setFlag m f).flag k g = true := by
  unfold State.setFlag
  split
  · assumption
  · by_cases e : k = m
    · subst e
      simp only [State.flag] at h
      simp [State.flag, h]
    · simpa only [State.flag, State.modLif_lifOf_other _ _ _ _ e] using h

@[simp] theorem State.setFlagAll_sansLif (s : State) (f : EventFlag) : (s.setFlagAll f).sansLif = s.sansLif := by
  simp [State.setFlagAll]

theorem State.setFlagAll_still (s : State) (k : Master) (f : EventFlag) :
    ((s.setFlagAll f).lifOf k).still = (s.lifOf k).still := by
  simp [State.setFlagAll, State.setFlag_still]

/-- After a flag is set for all masters it stands for all. -/
theorem State.setFlagAll_flagged (s : State) (f : EventFlag) : (s.setFlagAll f).flagged f := by
  intro m
  cases m
  · exact State.setFlag_keeps _ _ _ _ _ (State.setFlag_keeps _ _ _ _ _ (State.setFlag_sets _ _ _))
  · exact State.setFlag_keeps _ _ _ _ _ (State.setFlag_sets _ _ _)
  · exact State.setFlag_sets _ _ _

theorem State.setFlagAll_keeps (s : State) (f g : EventFlag) (h : s.flagged g) : (s.setFlagAll f).flagged g :=
  fun m => State.setFlag_keeps _ _ _ _ _ (State.setFlag_keeps _ _ _ _ _ (State.setFlag_keeps _ _ _ _ _ (h m)))

/-! ### Notices and responses (R187) -/

/-- What notices and flags change of a link interface is left out: its transmit queue, its flags, whether a STATUS
is due, and its counter of lost notices. -/
def Lif.frame (l : Lif) : Lif := { l with tx := [], flags := 0, statusDue := false, lost := 0 }

/-- The link interfaces are as they were, but for what notices and flags change. -/
def LinksStand (s t : State) : Prop := ∀ k, (t.lifOf k).frame = (s.lifOf k).frame

/-- The messages of `f` join the transmit queues, as far as they find a place. -/
def Sends (f : Master → List OutMsg) (s t : State) : Prop := ∀ k, (t.lifOf k).tx = (s.lifOf k).queued (f k)

/-- A link interface without what notices and flags change. -/
theorem frame_of_still {l k : Lif} (h : l.still = k.still) : l.frame = k.frame := by
  have := congrArg (fun x : Lif => { x with tx := [], lost := 0 }) h
  simpa [Lif.still, Lif.frame] using this

theorem tx_of_still {l k : Lif} (h : l.still = k.still) : l.tx = k.tx := congrArg (·.tx) h
theorem link_of_still {l k : Lif} (h : l.still = k.still) : l.link = k.link := congrArg (·.link) h
theorem link_of_frame {l k : Lif} (h : l.frame = k.frame) : l.link = k.link := congrArg (·.link) h

theorem linkUp_of_frame {s t : State} {k : Master} (h : (t.lifOf k).frame = (s.lifOf k).frame) :
    t.linkUp k = s.linkUp k := by
  simp [State.linkUp, link_of_frame h]

@[simp] theorem Lif.queued_nil (l : Lif) : l.queued [] = l.tx := by
  simp [Lif.queued]

/-- Messages queued after others. -/
theorem Lif.queued_append (l k : Lif) (a b : List OutMsg) (h : k.tx = l.queued a) (hl : k.link = l.link) :
    k.queued b = l.queued (a ++ b) := by
  unfold Lif.queued at h ⊢
  rw [hl]
  split at h
  · rename_i e
    simp only [e, ↓reduceIte]
    rw [h]
    simp only [List.append_assoc, List.length_append, List.length_map, List.length_take, List.take_append,
      List.map_append]
    have : txPlaces - (l.tx.length + min (txPlaces - l.tx.length) a.length) =
        txPlaces - l.tx.length - a.length := by omega
    rw [this]
  · rename_i e
    simp [e, h]

/-- What a notice does: nothing to another master; to its master, the message joins the tail when the link is UP and a
place is free; nothing but transmit queues, flags and lost notices changes. -/
theorem State.notice_spec (s : State) (m : Master) (msg : OutMsg) :
    (s.notice m msg).sansLif = s.sansLif ∧
      (∀ k, ((s.notice m msg).lifOf k).frame = (s.lifOf k).frame) ∧
      (∀ k, ((s.notice m msg).lifOf k).tx = (s.lifOf k).queued (onlyFor m [msg] k)) := by
  unfold State.notice
  by_cases up : s.linkUp m = true
  · simp only [up, Bool.not_true, Bool.false_eq_true, ↓reduceIte]
    have up' : (s.lifOf m).link = .up := by simpa [State.linkUp] using up
    by_cases room : (s.lifOf m).hasRoom = true
    · simp only [room, ↓reduceIte, State.enqueue]
      have hr : (s.lifOf m).tx.length < txPlaces := by simpa [Lif.hasRoom] using room
      refine ⟨by simp, fun k => ?_, fun k => ?_⟩
      · by_cases h : k = m
        · subst h; simp [Lif.frame]
        · rw [State.modLif_lifOf_other _ _ _ _ h]
      · by_cases h : k = m
        · subst h
          simp only [State.modLif_lifOf_same, onlyFor, ↓reduceIte, Lif.queued, up']
          rw [List.take_of_length_le (by simp; omega)]
          simp
        · rw [State.modLif_lifOf_other _ _ _ _ h]
          simp [onlyFor, h]
    · simp only [room, Bool.false_eq_true, ↓reduceIte, State.noticeLost]
      have hr : txPlaces ≤ (s.lifOf m).tx.length := by simpa [Lif.hasRoom] using room
      have lost : (s.countLost m).sansLif = s.sansLif ∧
          (∀ k, ((s.countLost m).lifOf k).frame = (s.lifOf k).frame ∧
            ((s.countLost m).lifOf k).tx = (s.lifOf k).tx) := by
        unfold State.countLost State.advance
        split
        · refine ⟨by simp, fun k => ?_⟩
          have := State.setFlagAll_still (s.modLif m fun l => { l with lost := (s.lifOf m).lost + 1 }) k .counters
          rw [frame_of_still this, tx_of_still this]
          by_cases h : k = m
          · subst h; simp [Lif.frame]
          · rw [State.modLif_lifOf_other _ _ _ _ h]; exact ⟨rfl, rfl⟩
        · exact ⟨rfl, fun k => ⟨rfl, rfl⟩⟩
      refine ⟨by simp [lost.1], fun k => ?_, fun k => ?_⟩
      · rw [frame_of_still (State.setFlag_still _ _ _ _)]; exact (lost.2 k).1
      · rw [tx_of_still (State.setFlag_still _ _ _ _), (lost.2 k).2]
        by_cases h : k = m
        · subst h
          have : txPlaces - (s.lifOf k).tx.length = 0 := by omega
          simp [onlyFor, Lif.queued, up', this]
        · simp [onlyFor, h]
  · have dn : (s.lifOf m).link ≠ .up := by simpa [State.linkUp] using up
    simp only [up, Bool.not_false, ↓reduceIte]
    refine ⟨trivial, fun _ => trivial, fun k => ?_⟩
    by_cases h : k = m
    · subst h; simp [Lif.queued, dn]
    · simp [onlyFor, h]

/-- `t` is `s` after notices and flags alone, with the messages of `f` queued. -/
def Told (f : Master → List OutMsg) (s t : State) : Prop :=
  t.sansLif = s.sansLif ∧ LinksStand s t ∧ Sends f s t

theorem Told.refl (s : State) : Told (fun _ => []) s s :=
  ⟨rfl, fun _ => rfl, fun _ => by simp⟩

theorem Told.trans {f g : Master → List OutMsg} {s t u : State} (a : Told f s t) (b : Told g t u) :
    Told (fun k => f k ++ g k) s u :=
  ⟨b.1.trans a.1, fun k => (b.2.1 k).trans (a.2.1 k), fun k => by
    rw [b.2.2 k]; exact Lif.queued_append _ _ _ _ (a.2.2 k) (link_of_frame (a.2.1 k))⟩

theorem Told.congr {f g : Master → List OutMsg} {s t : State} (a : Told f s t) (h : ∀ k, f k = g k) : Told g s t :=
  ⟨a.1, a.2.1, fun k => by rw [a.2.2 k, h k]⟩

theorem State.notice_told (s : State) (m : Master) (msg : OutMsg) : Told (onlyFor m [msg]) s (s.notice m msg) :=
  State.notice_spec s m msg

theorem State.setFlagAll_told (s : State) (f : EventFlag) : Told (fun _ => []) s (s.setFlagAll f) :=
  ⟨by simp, fun k => frame_of_still (State.setFlagAll_still s k f), fun k => by
    rw [tx_of_still (State.setFlagAll_still s k f)]; simp⟩

/-- Notices to the masters of a list without repeats. -/
theorem foldl_notice_told (msg : Master → OutMsg) (set : Master → Bool) (s : State) :
    Told (fun k => if set k then [msg k] else []) s
      (masters.foldl (fun t m => if set m then t.notice m (msg m) else t) s) := by
  simp only [masters, List.foldl]
  have one : ∀ (u : State) (m : Master),
      Told (fun k => if k = m then (if set m then [msg m] else []) else []) u
        (if set m then u.notice m (msg m) else u) := by
    intro u m
    split
    · exact (State.notice_told u m (msg m)).congr fun k => by
        by_cases h : k = m <;> simp [onlyFor, h]
    · exact (Told.refl u).congr fun k => by by_cases h : k = m <;> simp [h]
  exact (((one s .clA).trans (one _ .clB)).trans (one _ .mp)).congr fun k => by cases k <;> simp

/-- A response joins the tail of the queue of an UP master that has room. -/
theorem State.respond_told (s : State) (m : Master) (msg : OutMsg) (up : s.linkUp m = true)
    (room : (s.lifOf m).hasRoom = true) : Told (onlyFor m [msg]) s (s.respond m msg) := by
  have : s.respond m msg = s.notice m msg := by
    simp [State.respond, State.notice, up, room]
  rw [this]; exact State.notice_told s m msg

/-- A response to a master that has room changes nothing but its queue's tail. -/
theorem State.respond_only (s : State) (m : Master) (msg : OutMsg) (room : (s.lifOf m).hasRoom = true) :
    OnlyQueues m msg s (s.respond m msg) := by
  simp only [State.respond, State.enqueue, room, ↓reduceIte]
  exact ⟨by simp, fun k h => State.modLif_lifOf_other _ _ _ _ h, sansLif_put (by simp)⟩

/-! ### STATUS (R189) -/

/-- A STATUS is made as R189 says, and nothing else changes. -/
theorem State.makeStatus_spec (s : State) (m : Master) :
    (s.makeStatus m).lifOf m = (s.lifOf m).withStatus (s.statusFor m) ∧
      (∀ k, k ≠ m → (s.makeStatus m).lifOf k = s.lifOf k) ∧ (s.makeStatus m).sansLif = s.sansLif := by
  unfold State.makeStatus Lif.withStatus
  by_cases w : (s.lifOf m).tx.any (fun e => e.msg.isStatus && e.sent == 0) = true
  · simp only [w, ↓reduceIte]
    exact ⟨by simp, fun k h => State.modLif_lifOf_other _ _ _ _ h, by simp⟩
  · by_cases r : (s.lifOf m).tx.length < 32
    · simp only [w, Lif.hasRoom, txPlaces, r, decide_true, Bool.false_eq_true, ↓reduceIte]
      exact ⟨by simp, fun k h => State.modLif_lifOf_other _ _ _ _ h, by simp⟩
    · simp only [w, Lif.hasRoom, txPlaces, r, decide_false, Bool.false_eq_true, ↓reduceIte]
      exact ⟨by simp, fun k h => State.modLif_lifOf_other _ _ _ _ h, by simp⟩

/-! ### The take (R124, R133) and the request -/

/-- The take on an UP link. -/
theorem State.take_up (s : State) (m : Master) (up : (s.lifOf m).link = .up) :
    s.take m = s.modLif m fun l =>
      { l with lastTake := some s.time, deadline := some (s.time + s.cs.settings.keepAlive.get m) } := by
  have : (s.modLif m fun l => { l with lastTake := some s.time }).linkUp m = true := by
    simp [State.linkUp, up]
  unfold State.take
  simp only [this, ↓reduceIte]
  simp [State.modLif]

/-- With an empty receive queue no request waits to be taken first. -/
theorem State.takeWaiting_empty (s : State) (m : Master) (k : Nat) (h : (s.lifOf m).rx = []) :
    s.takeWaiting m k = s := by
  cases k <;> simp [State.takeWaiting, h]

/-- While the LIF may not take a request none that waits is taken. -/
theorem State.takeWaiting_full (s : State) (m : Master) (k : Nat) (h : (s.lifOf m).canTake = false) :
    s.takeWaiting m k = s := by
  cases k <;> simp [State.takeWaiting, h]

/-- A request that the LIF may take in RUNNING, with none before it, is handled by its owner on the state after the
take. -/
theorem State.request_taken (s : State) (m : Master) (msg : Message) (owner : State → State)
    (can : (s.lifOf m).canTake = true) (first : (s.lifOf m).rx = []) (run : (s.take m).dev = .running) :
    s.request m msg owner = owner (s.take m) := by
  simp [State.request, State.serve, State.takeWaiting_empty _ _ _ first, can, first, run]

/-- A request that the LIF may take before RUNNING, with none before it, is refused NOT_READY. -/
theorem State.request_notReady (s : State) (m : Master) (msg : Message) (owner : State → State)
    (can : (s.lifOf m).canTake = true) (first : (s.lifOf m).rx = []) (run : (s.take m).dev ≠ .running) :
    s.request m msg owner = (s.take m).refuse m msg.tag .notReady := by
  simp [State.request, State.serve, State.takeWaiting_empty _ _ _ first, can, first, run]

/-- A request that the LIF may not take waits. -/
theorem State.request_waits (s : State) (m : Master) (msg : Message) (owner : State → State)
    (can : (s.lifOf m).canTake = false) : s.request m msg owner = s.receive m msg := by
  simp [State.request, State.takeWaiting_full _ _ _ can, can]

/-! ### Messages (R182, R183, R209) -/

@[simp] theorem Message.bytes_length (x : Message) : x.bytes.length = 4 + x.body.length := by
  simp [Message.bytes, toBytes]; omega

@[simp] theorem runs_nil (s t : State) : Runs [] s t ↔ t = s := Iff.rfl

@[simp] theorem runs_cons (c : Instr) (cs : List Instr) (s t : State) :
    Runs (c :: cs) s t ↔ ∃ u, exec c s = .next u ∧ Runs cs u t := Iff.rfl

/-- A message that arrives is its command, whatever its kind. -/
theorem State.arrive_spec (s : State) (m : Master) (x : Message) : exec (requestOf m x) s = .next (s.arrive m x) := by
  obtain ⟨kind, tag, body⟩ := x
  by_cases fill : kind = 0
  · subst fill; rfl
  · simp only [State.arrive, isFill, beq_eq_false_iff_ne.2 fill, Bool.false_eq_true, ↓reduceIte, requestOf, State.handle]
    split
    case h_32 => simp [exec, execUnknownKind, isFill, done]; exact fun e => absurd e fill
    all_goals
      rename_i h
      have e : kind = BitVec.ofNat 8 kind.toNat := by simp
      rw [h] at e; subst e; rfl

/-- The messages that arrive one after the other are their commands, run one after the other. -/
theorem arrivals_run (m : Master) (xs : List Message) (s : State) :
    Runs (xs.map (requestOf m)) s (xs.foldl (fun t x => t.arrive m x) s) := by
  induction xs generalizing s with
  | nil => rfl
  | cons x xs ih => exact ⟨_, s.arrive_spec m x, ih _⟩

end Sys2Proof.Machine
end

