-- ==== Sys2Proof/Laws/Settle.lean ====
section
/-! SUPPORT. What the end of an event leaves alone: a held-back rejoin and LM touch the topology, the line-end states,
the line alerts and the monitor, and set flags; calls, voice, posts, signalling, poller and store stand. -/

namespace Sys2Proof.Machine

/-- The parts of the state that the end of an event leaves alone. -/
structure Core where
  dev : DeviceState
  time : Nat
  lif : PerMaster Lif
  align : PerLink Alignment
  mp : MpPort
  cm : CallManager
  vx : Crosspoint
  posts : Vector Post 16
  mode : LineMode
  n : Nat
  signalling : PerChain (List SigMsg)
  cs : ConfigStore
  sp : Poller
  placed : Nat
  pending : List Instr

def State.core (s : State) : Core :=
  { dev := s.dev, time := s.time, lif := PerMaster.ofFn fun m => (s.lifOf m).still, align := s.align, mp := s.mp
    cm := s.cm, vx := s.vx, posts := s.ls.posts, mode := s.ls.mode, n := s.ls.n
    signalling := ⟨s.le.fwd.signalling, s.le.ret.signalling⟩, cs := s.cs, sp := s.sp, placed := s.placed
    pending := s.pending }

theorem ite_core {b : Prop} [Decidable b] {s t : State} {c : Core} (hs : s.core = c) (ht : t.core = c) :
    (if b then s else t).core = c := by split <;> assumption

theorem foldl_core {α : Type} (f : State → α → State) (xs : List α) (s : State)
    (h : ∀ t x, (f t x).core = t.core) : (xs.foldl f s).core = s.core := by
  induction xs generalizing s with
  | nil => rfl
  | cons x xs ih => simp [ih, h]

@[simp] theorem State.setFlagAll_core (s : State) (f : EventFlag) : (s.setFlagAll f).core = s.core := by
  have h := State.setFlagAll_sansLif s f
  have l : ∀ m, ((s.setFlagAll f).lifOf m).still = (s.lifOf m).still := fun m => State.setFlagAll_still s m f
  have e : PerMaster.ofFn (fun m => ((s.setFlagAll f).lifOf m).still) =
      PerMaster.ofFn (fun m => (s.lifOf m).still) := congrArg _ (funext l)
  simp only [State.core, e, sansLif_cm h, sansLif_ls h, sansLif_le h, sansLif_cs h, sansLif_sp h, sansLif_vx h,
    sansLif_time h, sansLif_dev h, show (s.setFlagAll f).align = s.align from congrArg (·.align) h,
    show (s.setFlagAll f).mp = s.mp from congrArg (·.mp) h,
    show (s.setFlagAll f).placed = s.placed from congrArg (·.placed) h,
    show (s.setFlagAll f).pending = s.pending from congrArg (·.pending) h]

/-- A line end changed but for its signalling FIFO. -/
theorem State.modLe_core (s : State) (d : Chain) (f : LineEnd → LineEnd)
    (h : ∀ e, (f e).signalling = e.signalling) : (s.modLe d f).core = s.core := by
  cases d <;> simp [State.core, State.modLe, PerChain.set, PerChain.get, State.lifOf, h]

@[simp] theorem State.setAlerts_core (s : State) (xs : List LineAlert) : (s.setAlerts xs).core = s.core := rfl
@[simp] theorem State.topologyTold_core (s : State) : s.topologyTold.core = s.core := rfl
@[simp] theorem State.endEvent_core (s : State) : s.endEvent.core = s.core := rfl

@[simp] theorem State.lineChanged_core (s : State) : s.lineChanged.core = s.core := by
  exact ite_core (State.setFlagAll_core s .line) (State.setFlagAll_core s .line)

@[simp] theorem State.raiseAlert_core (s : State) (k : LineAlertKind) (p : AlertPlace) :
    (s.raiseAlert k p).core = s.core := by
  unfold State.raiseAlert; split <;> simp

@[simp] theorem State.clearAlerts_core (s : State) (k : LineAlertKind) (hit : AlertPlace → Bool) :
    (s.clearAlerts k hit).core = s.core := by
  unfold State.clearAlerts; simp only; split <;> simp

@[simp] theorem State.clearAlert_core (s : State) (k : LineAlertKind) (p : AlertPlace) :
    (s.clearAlert k p).core = s.core := by
  simp [State.clearAlert]

@[simp] theorem State.clearBreak_core (s : State) : s.clearBreak.core = s.core := by
  unfold State.clearBreak
  split
  · rfl
  · simp only [State.lineChanged_core, State.clearAlerts_core]; rfl

@[simp] theorem State.recomputeBreak_core (s : State) : s.recomputeBreak.core = s.core := by
  unfold State.recomputeBreak
  split
  · rfl
  · simp only
    split
    · rfl
    · simp only [State.lineChanged_core, State.placeBreak, State.setAlerts_core]; rfl

@[simp] theorem State.setBreak_core (s : State) : s.setBreak.core = s.core := by
  unfold State.setBreak
  split
  · simp
  · simp only [State.raiseAlert_core]; rfl

@[simp] theorem State.setPending_core (s : State) (v : Bool) : (s.setPending v).core = s.core := by
  unfold State.setPending
  split
  · rfl
  · simp only [State.lineChanged_core]; rfl

@[simp] theorem State.dropClaim_core (s : State) : s.dropClaim.core = s.core :=
  State.modLe_core _ _ _ (by intro _; rfl)

@[simp] theorem State.recomputeTopology_core (s : State) (v : Bool) : (s.recomputeTopology v).core = s.core := by
  unfold State.recomputeTopology
  simp only
  split
  · rfl
  · have a : (({ s with ls := { s.ls with topology := s.topologyFor v } } : State).lineChanged.topologyTold).core =
        s.core := by
      simp only [State.topologyTold_core, State.lineChanged_core]; rfl
    split <;> split <;> split <;> simp [a]

@[simp] theorem State.measureRequests_core (s : State) (d : Chain) (v : Bool) :
    (s.measureRequests d v).core = s.core := by
  unfold State.measureRequests
  split
  · split <;> rfl
  · rfl

/-- Leaving a state for one in which the control-slot queue is kept. -/
@[simp] theorem State.quietPort_core (s : State) (d : Chain) : (s.quietPort d).core = s.core := rfl

theorem State.leaveState_core (s : State) (d : Chain) (new : LineState) (h1 : new ≠ .off) (h2 : new ≠ .failed) :
    (s.leaveState d new).core = s.core := by
  unfold State.leaveState
  have n1 : (new == LineState.off) = false := by simpa using h1
  have n2 : (new == LineState.failed) = false := by simpa using h2
  simp only [n1, n2, Bool.or_self, Bool.and_false, Bool.false_eq_true, ↓reduceIte]
  generalize h : (s.leOf d).state = old
  refine (State.modLe_core _ _ _ (by intro _; rfl)).trans ?_
  have a : ∀ t : State, ((t.modLe d fun e => { e with refind := none }).measureRequests d false).core = t.core :=
    fun t => (State.measureRequests_core _ _ _).trans (State.modLe_core _ _ _ (by intro _; rfl))
  have b : ∀ t : State, ((t.modLe d fun e => { e with ageDue := false }).clearAlerts .tail fun _ => true).core =
      t.core := fun t => (State.clearAlerts_core _ _ _).trans (State.modLe_core _ _ _ (by intro _; rfl))
  have u : (if (old == .running && new != .running) = true then
      (s.modLe d fun e => { e with refind := none }).measureRequests d false else s).core = s.core := ite_core (a s) rfl
  generalize (if (old == .running && new != .running) = true then
      (s.modLe d fun e => { e with refind := none }).measureRequests d false else s) = x at u ⊢
  have v : (if (old == .watching && new != .watching) = true then
      (x.modLe d fun e => { e with ageDue := false }).clearAlerts .tail fun _ => true else x).core = s.core :=
    ite_core ((b x).trans u) u
  exact ite_core ((State.quietPort_core _ _).trans ((State.modLe_core _ _ _ (by intro _; rfl)).trans v)) v

theorem State.startState_core (s : State) (d : Chain) (new : LineState) : (s.startState d new).core = s.core := by
  cases new
  · rfl
  · exact State.modLe_core _ _ _ (by intro _; rfl)
  · exact State.modLe_core _ _ _ (by intro _; rfl)
  · exact (State.measureRequests_core _ _ _).trans <| (State.clearAlert_core _ _ _).trans <|
      State.modLe_core _ _ _ (by intro _; rfl)
  · exact (State.clearBreak_core _).trans <| (State.clearAlert_core _ _ _).trans <|
      State.modLe_core _ _ _ (by intro _; rfl)
  · exact State.modLe_core _ _ _ (by intro _; rfl)

theorem State.enterState_core (s : State) (d : Chain) (new : LineState) (h1 : new ≠ .off) (h2 : new ≠ .failed) :
    (s.enterState d new).core = s.core := by
  unfold State.enterState
  exact (State.recomputeTopology_core _ _).trans <| (State.startState_core _ _ _).trans <|
    (State.modLe_core _ _ _ (by intro _; rfl)).trans <| State.leaveState_core s d new h1 h2

@[simp] theorem State.placeClaim_core (s : State) : s.placeClaim.core = s.core := by
  unfold State.placeClaim
  split
  · exact State.enterState_core _ _ _ (by decide) (by decide)
  · split
    · rfl
    · exact State.modLe_core _ _ _ (by intro _; rfl)

@[simp] theorem State.rejoinStart_core (s : State) : s.rejoinStart.core = s.core := by
  simp [State.rejoinStart]

@[simp] theorem State.rejoinIfFreed_core (s : State) : s.rejoinIfFreed.core = s.core := by
  unfold State.rejoinIfFreed; split <;> simp

/-! ### LM -/

theorem State.withLm_core (s : State) (x : LineMonitor) : { s with lm := x }.core = s.core := rfl
@[simp] theorem State.sampled_core (s : State) (c : ConverterChannel) : (s.sampled c).core = s.core := rfl
@[simp] theorem State.roundSample_core (s : State) (c : ConverterChannel) : (s.roundSample c).core = s.core := rfl

@[simp] theorem State.enterMode_core (s : State) (m : MeasureMode) : (s.enterMode m).core = s.core := rfl

@[simp] theorem State.afterRound_core (s : State) : s.afterRound.core = s.core := by
  unfold State.afterRound
  cases s.lm.pendingMode <;> simp only <;> split <;> rfl

@[simp] theorem State.setSpan_core (s : State) (k : Nat) (x : Span) : (s.setSpan k x).core = s.core := rfl

@[simp] theorem State.invalidSpan_core (s : State) (r : Round) (k : Nat) (x : InvalidReason) :
    (s.invalidSpan r k x).core = s.core := rfl

@[simp] theorem State.computeLeakage_core (s : State) (r : Round) : (s.computeLeakage r).core = s.core := by
  unfold State.computeLeakage
  split
  · rfl
  · simp only
    split
    · simp only [State.raiseAlert_core]; rfl
    · simp only [State.clearAlert_core]; rfl

@[simp] theorem State.completeRound_core (s : State) (r : Round) : (s.completeRound r).core = s.core := by
  unfold State.completeRound
  simp only [State.afterRound_core]
  have a : (r.spans.foldl (fun t k => t.invalidSpan r k .skipped) s).core = s.core :=
    foldl_core _ _ _ fun _ _ => rfl
  generalize r.spans.foldl (fun t k => t.invalidSpan r k .skipped) s = x at a ⊢
  split
  · exact (State.computeLeakage_core x r).trans a
  · exact a

@[simp] theorem State.startRound_core (s : State) (d : Chain) (k : RoundKind) : (s.startRound d k).core = s.core := by
  unfold State.startRound
  exact (State.withLm_core _ _).trans <| (State.roundSample_core _ _).trans <|
    (State.roundSample_core _ _).trans <| State.roundSample_core _ _

@[simp] theorem State.takeRound_core (s : State) (d : Chain) (k : RoundKind) : (s.takeRound d k).core = s.core := by
  unfold State.takeRound
  cases k
  · exact (State.startRound_core _ _ _).trans (State.withLm_core _ _)
  · exact ite_core (State.withLm_core _ _) ((State.startRound_core _ _ _).trans (State.withLm_core _ _))

@[simp] theorem State.placeRead_core (s : State) (r : Round) (p : Nat) : (s.placeRead r p).core = s.core := by
  unfold State.placeRead
  cases r.paired <;> exact State.modLe_core _ _ _ (by intro _; rfl)

@[simp] theorem State.lmLook_core (k : Nat) (s : State) : (s.lmLook k).core = s.core := by
  induction k generalizing s with
  | zero => rfl
  | succ k ih =>
    unfold State.lmLook
    cases s.lm.round with
    | none =>
      simp only
      cases s.nextRequest with
      | none => rfl
      | some x => simp [ih]
    | some r =>
      simp only
      split
      · rfl
      · split
        · split <;> simp
        · simp [ih]

@[simp] theorem State.abortRound_core (s : State) : s.abortRound.core = s.core := by
  unfold State.abortRound
  cases s.lm.round with
  | none => rfl
  | some r =>
    simp only [State.afterRound_core]
    split
    · rfl
    · cases r.kind <;> rfl

@[simp] theorem State.lmReact_core (s : State) : s.lmReact.core = s.core := by
  unfold State.lmReact
  simp only [State.lmLook_core]
  split
  · exact State.abortRound_core s
  · rfl

/-- What ends an event of a call leaves calls, voice, posts, signalling, poller and store alone. -/
@[simp] theorem State.settleCalls_core (s : State) : s.settleCalls.core = s.core := by
  unfold State.settleCalls
  simp only [State.endEvent_core]
  split <;> simp

/-! ### What an equal core gives -/

section
variable {s t : State} (h : t.core = s.core)
include h

theorem core_cm : t.cm = s.cm := congrArg Core.cm h
theorem core_vx : t.vx = s.vx := congrArg Core.vx h
theorem core_sp : t.sp = s.sp := congrArg Core.sp h
theorem core_cs : t.cs = s.cs := congrArg Core.cs h
theorem core_time : t.time = s.time := congrArg Core.time h
theorem core_dev : t.dev = s.dev := congrArg Core.dev h
theorem core_posts : t.ls.posts = s.ls.posts := congrArg Core.posts h

theorem core_still (m : Master) : (t.lifOf m).still = (s.lifOf m).still := by
  have := congrArg (fun c : Core => c.lif.get m) h
  simpa [State.core] using this

theorem core_signalling : SignallingStands s t := fun d => by
  have := congrArg (fun c : Core => c.signalling.get d) h
  cases d <;> exact this

theorem core_callsStand : CallsStand s t := ⟨core_cm h, core_vx h, core_signalling h⟩

theorem core_linksStand : LinksStand s t := fun k => frame_of_still (core_still h k)

theorem core_standsApart : StandsApart s t :=
  ⟨core_cs h, core_sp h, core_time h, core_dev h, congrArg Core.align h, congrArg Core.mp h,
    congrArg Core.pending h, congrArg Core.placed h, core_posts h⟩

theorem core_sends : Sends (fun _ => []) s t := fun k => by simp [tx_of_still (core_still h k)]

end

end Sys2Proof.Machine
end

