-- ==== Sys2Proof/Laws/Calls.lean ====
section
/-! SUPPORT. What the shared operations on calls do: records by number, signalling messages, slots and channels, notices
about a call. One lemma for each says all of it. -/

namespace Sys2Proof.Machine

/-! ### Records by number (R69, R78) -/

/-- Changing the record with a number changes that record alone. -/
theorem State.modCall_callOf (s : State) (num : Nat) (f : Call → Call) (h : ∀ c, (f c).number = c.number) (k : Nat) :
    (s.modCall num f).callOf k = if k = num then (s.callOf num).map f else s.callOf k := by
  simp only [State.modCall, State.setQueue, State.callOf]
  generalize s.cm.queue = q
  induction q with
  | nil => simp
  | cons c q ih =>
    simp only [List.map_cons, List.find?_cons]
    by_cases e : c.number = num
    · simp only [e, beq_self_eq_true, ↓reduceIte, h]
      by_cases g : k = num
      · simp [g]
      · have g' : (num == k) = false := by simpa using fun x => g x.symm
        simpa [g, g'] using ih
    · have e' : (c.number == num) = false := by simpa using e
      simp only [e', Bool.false_eq_true, ↓reduceIte]
      by_cases g : c.number = k
      · have : k ≠ num := fun x => e (g.trans x)
        simp [g, this]
      · have g' : (c.number == k) = false := by simpa using g
        simpa [g'] using ih

/-- A change at CM advances the queue change number once, sets QUEUE for all masters, queues nothing and leaves
everything else alone (R69). -/
theorem State.queueChanged_spec (s : State) :
    s.queueChanged.cm = { s.cm with change := wrap255 s.cm.change } ∧ s.queueChanged.flagged .queue ∧
      { s.queueChanged with lif := s.lif, cm := s.cm } = s ∧ LinksStand s s.queueChanged ∧
      Sends (fun _ => []) s s.queueChanged := by
  have t := State.setFlagAll_told { s with cm := { s.cm with change := wrap255 s.cm.change } } .queue
  refine ⟨sansLif_cm t.1, State.setFlagAll_flagged _ _, ?_, t.2.1, t.2.2⟩
  exact congrArg (fun x : State => { x with lif := s.lif, cm := s.cm }) t.1

/-! ### Signalling messages (R36) -/

/-- A message is placed as R36 says, in the FIFO of the line end that serves the position, and nothing else changes. -/
theorem State.placeSignal_spec (s : State) (p : Nat) (msg : Signal) :
    Signals p msg s (s.placeSignal p msg) ∧ { s.placeSignal p msg with le := s.le } = s := by
  unfold State.placeSignal Signals
  cases h : (s.post p).serving with
  | none => exact ⟨fun d => by simp, rfl⟩
  | some e =>
    refine ⟨fun d => ?_, rfl⟩
    cases d <;> cases e <;> rfl

/-! ### Slots and channels (R120) -/

theorem at1_freeOf {α : Type} {n : Nat} (hit : α → Bool) (v : Vector (Option α) n) (p : Nat) :
    at1 (freeOf hit v) p none = (at1 v p none).filter fun y => !hit y := by
  unfold at1 freeOf
  split
  · rfl
  · by_cases h : p - 1 < n
    · simp [Vector.getD, h]
    · simp [Vector.getD, h]

/-- Order Free: the call's slots and channels are free, all others are as they were, and nothing else changes. -/
theorem State.freeVoice_spec (s : State) (num : Nat) :
    VoiceFreed num s (s.freeVoice num) ∧ { s.freeVoice num with vx := s.vx } = s := by
  refine ⟨⟨fun d k => ?_, fun m k => ?_, rfl⟩, rfl⟩
  · cases d <;> exact at1_freeOf _ _ _
  · cases m <;> exact at1_freeOf _ _ _

theorem at1_put1 {α : Type} {n : Nat} (v : Vector α n) (p q : Nat) (x d : α) (h : 1 ≤ p) (hn : p ≤ n) :
    at1 (put1 v p x) q d = if q = p then x else at1 v q d := by
  by_cases e : q = p
  · rw [if_pos e, e, at1_put1_same _ _ _ _ h hn]
  · rw [if_neg e, at1_put1_other _ _ _ _ _ e]

/-- Order Allocate: the slot and the channel hold the call and are joined, all others are as they were, and nothing else
changes. -/
theorem State.allocate_spec (s : State) (num : Nat) (d : Chain) (slot : Nat) (m : Master) (ch : Nat) (h1 : 1 ≤ slot)
    (h6 : slot ≤ 6) (hc : channelIn m ch = true) :
    VoiceJoined num d slot m ch s (s.allocate num d slot m ch) ∧
      { s.allocate num d slot m ch with vx := s.vx } = s := by
  have hc' : 1 ≤ ch ∧ ch ≤ channelCount m := by simpa [channelIn] using hc
  have slots : ∀ e k, (s.allocate num d slot m ch).slotOf e k =
      if (e, k) = (d, slot) then some num else s.slotOf e k := by
    intro e k
    cases d <;> cases e <;> cases m <;>
      simp [State.allocate, State.setSlot, State.setChannel, State.slotOf, PerChain.set, PerChain.get,
        at1_put1 _ _ _ _ _ h1 h6]
  have channels : ∀ x k, (s.allocate num d slot m ch).channelOf x k =
      if (x, k) = (m, ch) then some { call := num, chain := d, slot := slot } else s.channelOf x k := by
    intro x k
    cases x <;> cases m <;> simp [State.allocate, State.setSlot, State.setChannel, State.channelOf] <;>
      exact at1_put1 _ _ _ _ _ hc'.1 hc'.2
  refine ⟨⟨by simp [slots], by simp [channels], fun e k h => by simp [slots, h], fun x k h => by simp [channels, h], ?_⟩,
    ?_⟩
  · cases m <;> rfl
  · cases m <;> rfl

/-! ### Notices about a call (R83, R85) -/

/-- CALL_UPDATE goes to the masters of the set, and nothing else happens. -/
theorem State.updateTo_told (s : State) (c : Call) (cause : UpdateCause) (whom : Master → Bool) :
    Told (forThose whom (.callUpdate
      { number := c.number, cause := cause, state := c.state, cls := c.cls, flags := c.flags, condition := c.condition
        owner := c.owner, lastOwner := c.lastOwner, snapshot := c.snapshot, identity := (s.post c.pos).identity }))
      s (s.updateTo c cause whom) := by
  unfold State.updateTo
  rw [List.foldl_filter]
  exact foldl_notice_told (fun _ => _) whom s

/-- CALL_WITHDRAWN goes to the former offer set but one, and nothing else happens. -/
theorem State.withdrawOffers_told (s : State) (num : Nat) (old : PerMaster Bool) (reason : WithdrawReason)
    (but : Option Master) :
    Told (forThose (fun m => old.get m && but != some m) (.callWithdrawn num reason)) s
      (s.withdrawOffers num old reason but) := by
  unfold State.withdrawOffers
  rw [List.foldl_filter]
  exact foldl_notice_told (fun _ => _) _ s

/-- The notices of a changed offer set are those of R83, and nothing else happens. -/
theorem State.offerNotices_told (s : State) (old : PerMaster Bool) (c : Call) :
    Told (offerChange s old c) s (s.offerNotices old c) := by
  have one : ∀ (u : State) (m : Master), Told (fun k => if k = m then
      (if c.offer.get m && !old.get m then [s.offerMsg c]
       else if old.get m && !c.offer.get m then [.callWithdrawn c.number .notOffered] else []) else []) u
      (if c.offer.get m && !old.get m then u.notice m (s.offerMsg c)
       else if old.get m && !c.offer.get m then u.notice m (.callWithdrawn c.number .notOffered) else u) := by
    intro u m
    split
    · exact (State.notice_told u m _).congr fun k => by by_cases h : k = m <;> simp [onlyFor, h]
    · split
      · exact (State.notice_told u m _).congr fun k => by by_cases h : k = m <;> simp [onlyFor, h]
      · exact (Told.refl u).congr fun k => by by_cases h : k = m <;> simp [h]
  unfold State.offerNotices
  simp only [masters, List.foldl]
  exact (((one s .clA).trans (one _ .clB)).trans (one _ .mp)).congr fun k => by cases k <;> simp [offerChange]

end Sys2Proof.Machine
end

