-- ==== Sys2Proof/Laws/Memory.lean ====
section
/-! SUPPORT. The serial memory: what a byte written reads as, what the others read as, and the canonical form that
every memory operation keeps. -/

namespace Sys2Proof.Machine

/-- A lower bound on the addresses may be lowered. -/
theorem cellsWf_mono (cs : List Host.Cell) (lo hi : Nat) (h : lo ≤ hi) (w : cellsWf hi cs = true) :
    cellsWf lo cs = true := by
  cases cs with
  | nil => rfl
  | cons c cs =>
    simp only [cellsWf, Bool.and_eq_true, decide_eq_true_eq] at w ⊢
    exact ⟨⟨⟨by omega, w.1.1.2⟩, w.1.2⟩, w.2⟩

/-- Below the first address nothing is listed. -/
theorem cellAt_below (cs : List Host.Cell) (lo a : Nat) (w : cellsWf lo cs = true) (h : a < lo) :
    cellAt a cs = blankByte := by
  induction cs generalizing lo with
  | nil => rfl
  | cons c cs ih =>
    simp only [cellsWf, Bool.and_eq_true, decide_eq_true_eq] at w
    have hne : c.1 ≠ a := by omega
    simp only [cellAt, hne, if_false]
    exact ih (c.1 + 1) w.2 (by omega)

/-- Writing a cell keeps the canonical form. -/
theorem putCell_wf (cs : List Host.Cell) (lo a : Nat) (b : Byte) (w : cellsWf lo cs = true) (h : lo ≤ a)
    (hs : a < memorySize) : cellsWf lo (putCell a b cs) = true := by
  induction cs generalizing lo with
  | nil =>
    unfold putCell
    split
    · rfl
    · simp [cellsWf, *]
  | cons c cs ih =>
    simp only [cellsWf, Bool.and_eq_true, decide_eq_true_eq] at w
    unfold putCell
    split
    · split
      · simp [cellsWf, w]
      · simp only [cellsWf, Bool.and_eq_true, decide_eq_true_eq]
        exact ⟨⟨⟨h, hs⟩, by simpa using ‹¬b = blankByte›⟩, ⟨⟨by omega, w.1.1.2⟩, w.1.2⟩, w.2⟩
    · split
      · subst_vars
        split
        · exact cellsWf_mono _ _ _ (by omega) w.2
        · simp only [cellsWf, Bool.and_eq_true, decide_eq_true_eq]
          exact ⟨⟨⟨h, hs⟩, by simpa using ‹¬b = blankByte›⟩, w.2⟩
      · simp only [cellsWf, Bool.and_eq_true, decide_eq_true_eq]
        exact ⟨w.1, ih (c.1 + 1) w.2 (by omega)⟩

/-- The cell written reads as written. -/
theorem cellAt_putCell_same (cs : List Host.Cell) (lo a : Nat) (b : Byte) (w : cellsWf lo cs = true) :
    cellAt a (putCell a b cs) = b := by
  induction cs generalizing lo with
  | nil =>
    unfold putCell
    split
    · simp [cellAt, *]
    · simp [cellAt]
  | cons c cs ih =>
    simp only [cellsWf, Bool.and_eq_true, decide_eq_true_eq] at w
    unfold putCell
    split
    · split
      · have hne : c.1 ≠ a := by omega
        simp only [cellAt, hne, if_false]
        rw [cellAt_below cs (c.1 + 1) a w.2 (by omega)]
        exact (‹b = blankByte›).symm
      · simp [cellAt]
    · split
      · subst_vars
        split
        · rw [cellAt_below cs (c.1 + 1) c.1 w.2 (by omega)]
          exact (‹b = blankByte›).symm
        · simp [cellAt]
      · have hne : c.1 ≠ a := by omega
        simp only [cellAt, hne, if_false]
        exact ih (c.1 + 1) w.2

/-- The other cells read as before. -/
theorem cellAt_putCell_other (cs : List Host.Cell) (lo a x : Nat) (b : Byte) (w : cellsWf lo cs = true) (h : x ≠ a) :
    cellAt x (putCell a b cs) = cellAt x cs := by
  induction cs generalizing lo with
  | nil =>
    unfold putCell
    split
    · rfl
    · simp [cellAt, Ne.symm h]
  | cons c cs ih =>
    simp only [cellsWf, Bool.and_eq_true, decide_eq_true_eq] at w
    unfold putCell
    split
    · split
      · rfl
      · simp [cellAt, Ne.symm h]
    · split
      · subst_vars
        split
        · simp [cellAt, Ne.symm h]
        · simp [cellAt, Ne.symm h]
      · simp only [cellAt]
        split
        · rfl
        · exact ih (c.1 + 1) w.2

/-- A write keeps the canonical form. -/
theorem Memory.write_wf (m : Memory) (a : Nat) (b : Byte) (w : m.wf = true) : (m.write a b).wf = true := by
  unfold Memory.write
  split
  · exact putCell_wf _ 0 a b w (by omega) ‹_›
  · exact w

/-- A run of writes keeps the canonical form. -/
theorem Memory.writeRun_wf (m : Memory) (a : Nat) (bs : List Byte) (w : m.wf = true) :
    (Memory.writeRun a bs m).wf = true := by
  induction bs generalizing a m with
  | nil => exact w
  | cons b bs ih => exact ih _ _ (Memory.write_wf m a b w)

/-- The empty memory has the canonical form. -/
theorem Memory.empty_wf : ({} : Memory).wf = true := rfl

/-- A byte written reads as written. -/
theorem Memory.read_write_same (m : Memory) (a : Nat) (b : Byte) (w : m.wf = true) (h : a < memorySize) :
    (m.write a b).read a = b := by
  simp only [Memory.write, h, if_true, Memory.read]
  exact cellAt_putCell_same _ 0 _ _ w

/-- The other bytes read as before. -/
theorem Memory.read_write_other (m : Memory) (a x : Nat) (b : Byte) (w : m.wf = true) (h : x ≠ a) :
    (m.write a b).read x = m.read x := by
  unfold Memory.write
  split
  · exact cellAt_putCell_other _ 0 _ _ _ w h
  · rfl

/-- A byte outside a run of writes reads as before. -/
theorem Memory.read_writeRun_outside (m : Memory) (a x : Nat) (bs : List Byte) (w : m.wf = true)
    (h : x < a ∨ a + bs.length ≤ x) : (Memory.writeRun a bs m).read x = m.read x := by
  induction bs generalizing a m with
  | nil => rfl
  | cons b bs ih =>
    simp only [List.length_cons] at h
    unfold Memory.writeRun
    rw [ih _ _ (Memory.write_wf m a b w) (by omega), Memory.read_write_other m a x b w (by omega)]

/-- A byte of a run of writes reads as written. -/
theorem Memory.read_writeRun_inside (m : Memory) (a i : Nat) (bs : List Byte) (w : m.wf = true)
    (h : i < bs.length) (hs : a + bs.length ≤ memorySize) :
    (Memory.writeRun a bs m).read (a + i) = bs[i] := by
  induction bs generalizing a m i with
  | nil => simp at h
  | cons b bs ih =>
    simp only [List.length_cons] at h hs
    unfold Memory.writeRun
    cases i with
    | zero =>
      rw [Nat.add_zero, Memory.read_writeRun_outside _ _ _ _ (Memory.write_wf m a b w) (by omega)]
      exact Memory.read_write_same m a b w (by omega)
    | succ i =>
      have := ih (m.write a b) (a + 1) i (Memory.write_wf m a b w) (by omega) (by omega)
      simpa [Nat.add_assoc, Nat.add_comm 1 i] using this

/-- Reset leaves a canonical memory. -/
theorem State.reset_memory_wf : State.reset.cs.memory.wf = true := rfl

end Sys2Proof.Machine
end

