-- ==== Sys2Proof/Laws/Wire.lean ====
section
/-! SUPPORT. What the frame check says: a run of bytes followed by its check passes, and the frames the device sends
pass the tests of those that receive them (R208, R210, R213). -/

namespace Sys2Proof.Machine

@[simp] theorem toBytes_length (k v : Nat) : (toBytes k v).length = k := by
  induction k generalizing v with
  | zero => rfl
  | succ k ih => simp [toBytes, ih]

@[simp] theorem checkBytes_length (bs : List Byte) : (checkBytes bs).length = 2 := by simp [checkBytes]

@[simp] theorem withCheck_length (bs : List Byte) : (withCheck bs).length = bs.length + 2 := by simp [withCheck]

/-- A run of bytes followed by its check passes (R213). -/
@[simp] theorem passesCheck_withCheck (bs : List Byte) : passesCheck (withCheck bs) = true := by
  have h : (withCheck bs).length - 2 = bs.length := by simp
  simp only [passesCheck, h]
  simp [withCheck]

/-- A link frame with 64 voice bytes and at most 60 section bytes has 128 bytes and passes (R208). -/
theorem framePasses_linkFrame (voice part : List Byte) (offset : Option Nat) (hv : voice.length = 64)
    (hp : part.length ≤ 60) : framePasses (linkFrame voice part offset) = true := by
  have h : byteAt (linkFrame voice part offset) 0 = 1 := rfl
  have n : (linkFrame voice part offset).length = 128 := by simp [linkFrame, hv]; omega
  simp only [framePasses, h, n]
  simp [linkFrame]

@[simp] theorem controlBytes_length (kind pos : Nat) (params : List Byte) (h : params.length ≤ 12) :
    (controlBytes kind pos params).length = 16 := by
  simp [controlBytes]; omega

/-- A control message has 16 bytes (R210). -/
@[simp] theorem Sent.bytes_length (m : Sent) : m.bytes.length = 16 := by
  cases m with
  | signalling p msg => cases msg <;> simp [Sent.bytes]
  | access m p item write order => cases write <;> simp [Sent.bytes]
  | ls kind p => cases kind <;> simp [Sent.bytes]
  | _ => simp [Sent.bytes]

/-- A forward superframe with 48 voice bytes passes at the return port (R12, R210, R212). -/
theorem forwardPasses_downBytes (m : Sent) (voice : List Byte) (h : voice.length = 48) :
    forwardPasses (downBytes .fwd m voice) = true := by
  have n : (downBytes .fwd m voice).length = 68 := by simp [downBytes, h]
  have b : byteAt (downBytes .fwd m voice) 0 = 90 := rfl
  have c : byteAt (downBytes .fwd m voice) 1 = 1 := rfl
  simp only [forwardPasses, n, b, c]
  simp [downBytes]

end Sys2Proof.Machine
end

