-- ==== Sys2Proof/Machine/RoadPost.lean ====
section
/-! DEFINITION. The environment of the device: one post of the post line, as far as the device relies on it
(R6 to R8, R31, R45, R139, R212). It is not part of State: what posts send arrives as a command's operand. -/

namespace Sys2Proof.Machine

/-- One post. `held` is the direction and position it is held at, `quiet` the milliseconds since the last control
message of its direction, `lowered` that DISCONNECT has come and the handset has not been replaced since (R6, R8,
R31, R45). -/
structure RoadPost where
  serial : Serial
  kind : Byte
  held : Option (Chain × Nat) := none
  quiet : Nat := 0
  hookOff : Bool := false
  raised : Request := .idle
  lowered : Bool := false
  ringing : Bool := false
  tone : Option Tone := none
  slot : Nat := 0
  seq : BitVec 2 := 0
  settings : Vector Nat 24 := Vector.replicate 24 0
  own : Nat × Nat := (0, 0)
  sensors : Vector Nat 16 := Vector.replicate 16 0
  busy : Bool := false
deriving DecidableEq, Repr

/-- A control message as a post reads it (R30). -/
inductive PostMsg where
  | idle
  | discover
  | claim
  | probe
  | signal (m : Signal)
  | itemRead (item : Nat)
  | itemWrite (item value : Nat)
  | sense (sensor : Nat)
  | line
deriving DecidableEq, Repr

/-- The time without a control message after which a post becomes unassigned, ms (R6). -/
def assignmentTime : Nat := 100

/-- An unassigned post stops ringing, tone and audio and gives up its slot (R6, R31). -/
def RoadPost.unassign (x : RoadPost) : RoadPost :=
  { x with held := none, quiet := 0, ringing := false, tone := none, slot := 0 }

/-- A post takes a direction and a position; a new direction costs it its voice slot (R6, R7, R45, R122). -/
def RoadPost.assign (d : Chain) (p : Nat) (x : RoadPost) : RoadPost :=
  if x.held == some (d, p) then x else { x with held := some (d, p), quiet := 0, slot := 0 }

/-- The content of an item (R45). -/
def RoadPost.item (x : RoadPost) (i : Nat) : Nat :=
  if i < 24 then x.settings.getD i 0
  else match i with
    | 24 => (x.held.map (·.2)).getD 0
    | 25 => (x.held.map fun h => chainCode h.1).getD 0
    | 26 => x.slot
    | 27 => x.kind.toNat
    | 28 => x.serial.toNat / 65536
    | 29 => x.serial.toNat % 65536
    | 30 => x.own.1
    | _ => x.own.2

/-- What a held post does with a signalling message addressed to it; a repeat has the same effect (R31). -/
def RoadPost.signal (m : Signal) (x : RoadPost) : RoadPost :=
  match m with
  | .connect s => { x with tone := none, slot := s }
  | .disconnect =>
    { x with ringing := false, tone := none, slot := 0, raised := .idle, lowered := x.hookOff }
  | .tone t => { x with tone := some t, slot := 0 }
  | .ring => { x with ringing := true }
  | .stopRing => { x with ringing := false }

/-- Does the post answer a message from side `d` for position `p`: it is held at that position from that side, or
it is the first post that is not held from that side (R6)? -/
def RoadPost.reached (d : Chain) (p : Nat) (x : RoadPost) : Bool :=
  match x.held with
  | none => true
  | some (e, q) => e != d || q == p

/-- What a post that is reached does with the assignment and presence messages (R7). An unassigned post answers PROBE
with UNASSIGNED as R7 has it, though R212 has it ignore PROBE: DESIGN CHOICE, log entry 36. -/
def RoadPost.assignment (d : Chain) (p : Nat) (m : PostMsg) (x : RoadPost) : RoadPost × Option Resp :=
  let same := x.held.all (·.1 == d)
  match m with
  | .discover => if same then (x.assign d p, some (.ident x.serial x.kind)) else (x, some .heldElsewhere)
  | .claim => (x.assign .fwd p, some (.claimed x.serial x.kind))
  | .probe =>
    (x, some (if x.held.isNone then .unassigned else if same then .present else .heldElsewhere))
  | _ => (x, none)

/-- What a post does with the other messages addressed to it; `use` gives the nearest value that it can store in an
item (R31, R45, R139). -/
def RoadPost.addressed (use : Nat → Nat → Nat) (m : PostMsg) (x : RoadPost) : RoadPost × Option Resp :=
  match m with
  | .signal s => (x.signal s, some .ack)
  | .itemRead i => (x, some (if x.busy then .pending else .value i (x.item i)))
  | .itemWrite i v =>
    if x.busy then (x, some .pending)
    else ({ x with settings := x.settings.setIfInBounds i (use i v) }, some .ack)
  | .sense s => (x, some (.value s (x.sensors.getD s 0)))
  | .line => (x, some (.lineValues (x.sensors.getD 0 0) (x.sensors.getD 1 0)))
  | _ => (x, none)

/-- A post takes the control message of a superframe that it receives intact from side `d` (R6, R7, R212): its own
direction's restarts the assignment timer. -/
def RoadPost.take (use : Nat → Nat → Nat) (d : Chain) (p : Nat) (m : PostMsg) (x : RoadPost) : RoadPost × Option Resp :=
  let own := x.held.any (·.1 == d)
  let x := if own then { x with quiet := 0 } else x
  if !x.reached d p then (x, none)
  else
    match m with
    | .discover | .claim | .probe => x.assignment d p m
    | _ => if own && x.held.any (·.2 == p) then x.addressed use m else (x, none)

/-- The status word that a held post writes next, its sequence one greater (R8). -/
def RoadPost.write (x : RoadPost) : RoadPost × Option StatusWord :=
  match x.held with
  | none => (x, none)
  | some (d, _) =>
    let x := { x with seq := x.seq + 1 }
    (x, some { hookOff := x.hookOff, request := if x.lowered then .idle else x.raised, ringing := x.ringing
               dir := d, seq := x.seq })

/-- The handset is lifted: the request is raised, unless DISCONNECT keeps it down; ringing stops (R8, R114). -/
def RoadPost.lift (r : Request) (x : RoadPost) : RoadPost :=
  { x with hookOff := true, ringing := false, raised := if x.lowered then x.raised else r }

/-- The handset is replaced (R8). -/
def RoadPost.replace (x : RoadPost) : RoadPost := { x with hookOff := false, lowered := false }

/-- The daily self-test raises TEST with the handset on (R8, R73). -/
def RoadPost.selfTest (x : RoadPost) : RoadPost :=
  if x.raised == .idle && !x.lowered then { x with raised := .test } else x

/-- One millisecond passes at a post (R6). -/
def RoadPost.pass (x : RoadPost) : RoadPost :=
  if x.held.isNone then x
  else if assignmentTime ≤ x.quiet + 1 then x.unassign
  else { x with quiet := x.quiet + 1 }

end Sys2Proof.Machine
end

