-- ==== Sys2Proof/Tests/Slice0.lean ====
section
/-! SUPPORT. Our own tests: the well-formedness checks, small steps with results read off the spec's rules, and for
every statement with hypotheses a state and operands that meet them, clause by clause. -/

namespace Sys2Proof.Tests

open Sys2Proof.Machine

/-! ### States -/

/-- The state a command leaves. -/
def after (c : Instr) (s : State) : State :=
  match exec c s with
  | .next t => t
  | .fault _ | .refused _ => s

/-- A RUNNING device with all three links UP. -/
def live : State := { dev := .running, lif := ⟨{ link := .up }, { link := .up }, { link := .up }⟩ }

/-- A RUNNING device with all links DOWN. -/
def dark : State := { dev := .running }

/-- Post 3 served by a chain. -/
def served (d : Chain) (s : State) : State :=
  s.modPost 3 fun x => { x with state := .active, serving := some d, serial := some 77, kind := some 1 }

/-- A WAITING SERVICE call 7 of post 3, offered to every master. -/
def call : Call :=
  { number := 7, cls := .service, pos := 3, serial := 77, state := .waiting, arrival := 0, timer := 0, hookOff := true
    offer := ⟨true, true, true⟩, owner := none, lastOwner := none, pref := none, slot := none, channel := none
    snapshot := { version := 0, record := none }, condition := none, flags := {}, stage := none, toneTimer := none
    reminderBase := none, resumed := false }

def withCall (c : Call) : State := (served .fwd live).setQueue [c]
def waiting : State := withCall call
def connected : State := after (.answer .clA 5 [7, 2]) waiting
def held : State := after (.hold .clA 6 [7]) connected
def alerting : State := after (.callout .clA 5 [3, 2]) (served .fwd live)
def severed : State := withCall { call with state := .severed, offer := ⟨false, false, false⟩ }

/-- A later part time. -/
def at_ (t : Nat) (s : State) : State := { s with time := t }

/-- A line end in a state. -/
def inState (d : Chain) (x : LineState) (s : State) : State := s.modLe d fun e => { e with state := x }

/-- A LOOP of 6 posts in SPLIT: post 3 on FORWARD, posts 5 and 6 on RETURN. -/
def split : State :=
  let s := inState .fwd .running (inState .ret .running (served .fwd live))
  let s := [5, 6].foldl (fun t p => t.modPost p fun x => { x with state := .active, serving := some .ret }) s
  { s with ls := { s.ls with mode := .loop, n := 6, topology := .split } }

/-- A running forward line end with the given change. -/
def running (f : LineEnd → LineEnd) : State := (inState .fwd .running (served .fwd live)).modLe .fwd f

/-- A message of a kind. -/
def msg (kind : Byte) (body : List Byte) : Message := { kind := kind, tag := 9, body := body }

/-- An entry block for WRITE_ENTRY at position 3: route M1, chainage 5, label A, cable distance 900. -/
def entryBody : List Byte :=
  [3, 1, 2, 77, 49, 0, 0, 0, 0, 1, 0, 0, 0, 5, 1, 65, 0, 0, 0, 0, 0, 0, 0, 3, 132, 0, 0, 0, 0, 0, 0, 0, 0]

def record3 : LocationRecord :=
  { route := [77, 49], carriageway := 1, chainage := 5, label := [65], cable := 900, ret := none, serial := none }

/-! ### Well-formedness: each check refuses a term (R2, R4, R78, R140, R182, R198, R206, R208 to R210) -/

theorem test_wf_reset : wellFormed (.reset 1026) = true ∧ wellFormed (.reset 1027) = false := by decide
theorem test_wf_reading : wellFormed (.loadEnd (.other [1])) = true ∧
    readingFits (.other (List.replicate 8193 0)) = false := by decide +kernel
theorem test_wf_frame : wellFormed (.linkFrameReceived .a none) = true ∧
    wellFormed (.linkFrameReceived .a (some [1, 2])) = false := by decide
theorem test_wf_kind : wellFormed (.unknownKind .clA 32 0 []) = true ∧
    wellFormed (.unknownKind .clA 31 0 []) = false ∧ wellFormed (.unknownKind .clA 0 0 []) = false := by decide
theorem test_wf_body : wellFormed (.alive .clA 0 (List.replicate 236 0)) = true ∧
    wellFormed (.alive .clA 0 (List.replicate 237 0)) = false := by decide +kernel
theorem test_wf_save : wellFormed (.saveEnd (.noAnswer 1026)) = true ∧
    wellFormed (.saveEnd (.noAnswer 1027)) = false := by decide
theorem test_wf_upstream : wellFormed (.upstreamSuperframe .fwd []) = true ∧
    wellFormed (.upstreamSuperframe .fwd [0]) = false := by decide
theorem test_wf_downstream : wellFormed (.forwardSuperframeSeen []) = false := by decide
theorem test_wf_call : wellFormed (.escalation 255) = true ∧ wellFormed (.escalation 0) = false ∧
    wellFormed (.escalation 256) = false := by decide
theorem test_wf_pair : wellFormed (.pollPairDue 31 16) = true ∧ wellFormed (.pollPairDue 32 1) = false ∧
    wellFormed (.pollPairDue 0 17) = false := by decide

/-! ### Small steps, with results from the rules -/

/-- R101: the lowest free slot and the named channel. -/
theorem test_answer_connects : (connected.callOf 7).map (fun c => (c.state, c.owner, c.slot, c.channel)) =
    some (.connected, some .clA, some (.fwd, 1), some 2) := by decide
/-- R101, R120: CONNECT (slot 1) waits for post 3. -/
theorem test_answer_places_connect : connected.le.fwd.signalling = [{ pos := 3, msg := .connect 1 }] := by decide
/-- R36, R105: TONE HOLD replaces the waiting CONNECT in its place. -/
theorem test_hold_replaces_connect : held.le.fwd.signalling = [{ pos := 3, msg := .tone .hold }] := by decide
/-- R120: a HELD call has no slot. -/
theorem test_hold_frees_slot : held.slotOf .fwd 1 = none ∧ held.channelOf .clA 2 = none := by decide +kernel
/-- R106: RETRIEVE joins the call again. -/
theorem test_retrieve_connects : ((after (.retrieve .clA 7 [7, 3]) held).callOf 7).map (fun c => (c.state, c.channel)) =
    some (.connected, some 3) := by decide +kernel
/-- R108: the target alone is offered the call. -/
theorem test_transfer_offers : ((after (.transfer .clA 7 [7, 2]) connected).callOf 7).map (fun c => (c.state, c.offer)) =
    some (.waiting, ⟨false, true, false⟩) := by decide
/-- R110: with the handset off the CLEARED tone comes first. -/
theorem test_clear_tone_first : ((after (.clear .clA 7 [7]) connected).callOf 7).map (fun c => (c.state, c.stage)) =
    some (.clearing, some .tone) := by decide
/-- R112, R113: the call-out rings, numbered 1 after reset. -/
theorem test_callout_rings : (alerting.callOf 1).map (fun c => (c.state, c.cls)) = some (.alerting, .callout) ∧
    alerting.le.fwd.signalling = [{ pos := 3, msg := .ring }] := by decide
/-- R94: a call CLOSED leaves no record. -/
theorem test_close_ends : (after (.close .clA 1 [7]) severed).cm.queue = [] := by decide
/-- R87: 60 000 ms of waiting end a TEST call. -/
theorem test_test_expires :
    (after (.testExpired 7) (at_ 60000 (withCall { call with cls := .test }))).cm.queue = [] ∧
      (after (.testExpired 7) (at_ 59999 (withCall { call with cls := .test }))).cm.queue.length = 1 := by decide
/-- R86: escalation after 30 s by default. -/
theorem test_escalates : ((after (.escalation 7) (at_ 30000 waiting)).callOf 7).map (·.flags.escalated) = some true ∧
    ((after (.escalation 7) (at_ 29999 waiting)).callOf 7).map (·.flags.escalated) = some false := by decide
/-- R115: the call-out limit is 60 s by default. -/
theorem test_callout_limit : (after (.calloutLimitExpiry 1) (at_ 60000 alerting)).cm.queue = [] := by decide
/-- R133: a request taken on a DOWN link brings it UP with all flags set. -/
theorem test_alive_brings_up : ((after (.alive .clB 1 []) dark).lifOf .clB).link = .up ∧
    ((after (.alive .clB 1 []) dark).lifOf .clB).flags = 511 := by decide
/-- R197: no request is handled before RUNNING. -/
theorem test_not_ready : ((after (.alive .clA 4 []) State.reset).lifOf .clA).tx.getLast? =
    some ⟨.refused 4 .notReady none, 0⟩ := by decide
/-- R182: an unknown kind is BAD_VALUE. -/
theorem test_unknown_kind : ((after (.unknownKind .clA 32 4 []) live).lifOf .clA).tx =
    [⟨.refused 4 .badValue none, 0⟩] := by decide
/-- R196: MP may not SAVE. -/
theorem test_mp_may_not_save : ((after (.save .mp 4 []) live).lifOf .mp).tx =
    [⟨.refused 4 .notPermitted none, 0⟩] := by decide
/-- R205: the stage after an accepted SAVE. -/
theorem test_save_writes : (after (.save .clA 4 []) live).cs.stage = .writing := by decide
/-- R202: the keep-alive window is clamped to 100 ms. -/
theorem test_setting_clamped :
    (after (.writeSetting .clA 4 [9, 2, 0, 7]) live).cs.settings.keepAlive = ⟨2000, 100, 2000⟩ := by decide +kernel
/-- R54, R57: the entry and the version. -/
theorem test_write_entry : (after (.writeEntry .clA 4 entryBody) live).entry 3 = some record3 ∧
    (after (.writeEntry .clA 4 entryBody) live).cs.version = 1 := by decide
/-- R141: the first byte is the entry's number; ALL pairs with every position. -/
theorem test_write_poll_all :
    (after (.writePoll .clA 4 [2, 1, 0, 5, 1, 0, 15, 0, 3, 0, 0, 2, 7, 0, 9]) live).sp.pairs.length = 16 := by decide
/-- R161: FOCUSED starts both timers, 60 s and 5 s. -/
theorem test_measure_focused : ((after (.measure .clA 4 [3]) live).lm.focus, (after (.measure .clA 4 [3]) live).lm.cycle) =
    (some 5000, some { start := 0, expiry := 60000 }) := by decide
/-- R42: the score falls to 0 and a QUARANTINED post is marked. -/
theorem test_release_post :
    let s := (served .fwd live).modPost 3 fun x => { x with state := .quarantined, score := 150 }
    let x := (after (.releasePost .clA 4 [3]) s).post 3
    x.score = 0 ∧ x.releaseMark = true ∧ x.state = .quarantined := by decide
/-- R29: the line starts anew with LE-F feeding for 250 ms. -/
theorem test_restart_line : (after (.restartLine .clA 4 []) (at_ 70 split)).le.fwd.settle = some 320 ∧
    ((after (.restartLine .clA 4 []) split).post 5).state = .lost := by decide +kernel
/-- R27: a rejoin sends CLAIM to b+1, here 4. -/
theorem test_rejoin_claims : (after (.rejoin .clA 4 []) split).le.fwd.lsMsg = some { kind := .claim, pos := 4 } := by
  decide
/-- R46: the access waits at the serving line end. -/
theorem test_post_write_waits :
    ((after (.postWrite .clB 4 [3, 23, 1, 2]) (served .ret live)).lifOf .clB).access.map (fun a => (a.chain, a.write)) =
      some (.ret, some 258) := by decide
/-- R11: ten samples above the limit turn the feed off. -/
theorem test_over_current :
    (after (.overCurrent .fwd) (split.modLe .fwd fun e => { e with overRun := 10 })).le.fwd.state = .failed := by decide +kernel
/-- R13: the settle timer starts discovery at position 1. -/
theorem test_settle_discovers :
    (after (.settleExpiry .fwd) (inState .fwd .feeding (live.modLe .fwd fun e => { e with settle := some 0 }))).le.fwd.discovery =
      some { pos := 1 } := by decide
/-- R210, R213: the bytes of an idle superframe begin with 90 and the chain, and the check ends them. -/
theorem test_idle_superframe :
    (after (.downstreamSuperframe .fwd) (inState .fwd .running live)).pins.lineOut.fwd.take 4 = [90, 1, 1, 0] ∧
      (after (.downstreamSuperframe .fwd) (inState .fwd .running live)).pins.lineOut.fwd.length = 68 := by decide
/-- R19: the sixteenth silent superframe loses the post. -/
theorem test_sixteenth_silence :
    let s := (inState .fwd .running (served .fwd live)).modPost 3 fun x => { x with silence := 15 }
    ((after (.upstreamSuperframe .fwd []) (s.modLe .fwd fun e => { e with sent := some .idle })).post 3).state = .lost := by
  decide +kernel
/-- R127: at 50 ms an UP link goes DOWN. -/
theorem test_alignment_expiry :
    ((after (.alignmentTimerExpiry .b) (live.modAlign .b fun a => { a with timer := some 50 })).lifOf .clB).link = .down := by
  decide
/-- R184: a gap of more than 5 ms counts a frame check failure of MP, one of 5 ms does not. -/
theorem test_character_gap :
    ((after .mpCharacterGap (at_ 6 (after (.mpMessageReceived [some 165, some 1]) live))).lifOf .mp).frameFails = 1 ∧
      ((after .mpCharacterGap (at_ 5 (after (.mpMessageReceived [some 165, some 1]) live))).lifOf .mp).frameFails = 0 := by
  decide
/-- R208: the free channel is silent. -/
theorem test_handset_silent : (after (.handsetAudioSample 7) live).pins.audioOut = 213 := by decide
/-- R197: STARTING lasts 5 ms. -/
theorem test_starting : (after .startingEnd (at_ 5 State.reset)).dev = .loading ∧
    (after .startingEnd (at_ 4 State.reset)).dev = .starting := by decide
/-- R199, R201: a memory that does not answer gives the defaults. -/
theorem test_load_defaults : (after (.loadEnd .noAnswer) { State.reset with dev := .loading }).dev = .running ∧
    (after (.loadEnd .noAnswer) { State.reset with dev := .loading }).le.fwd.state = .feeding := by decide +kernel

/-! ### Witnesses: the machine -/

theorem witness_EmptyQueueSchedulesOrPassesTime :
    let quiet := { live with align := ⟨{ boundaryTaken := true, timer := some 49 }, { boundaryTaken := true }⟩ }
    let fed := (inState .fwd .feeding quiet).modLe .ret fun e => { e with state := .watching, age := 15 }
    let sampled := { fed with pins := { fed.pins with converter := { fed.pins.converter with forwardI := 4000 } } }
    let asked := live.modLif .clB fun l => { l with rx := [msg 1 [], msg 2 [1]] }
    asked.pending = [] ∧ asked.takable = some (.clB, msg 1 []) ∧
      live.takable = none ∧ live.dueNow = some (.linkFrameReceived .a none) ∧
      quiet.pending = [] ∧ quiet.takable = none ∧ quiet.dueNow = none ∧
      sampled.pending = [] ∧ sampled.takable = none ∧ sampled.dueNow = none := by decide
/-- R11, R12, R127: over the millisecond the run counts a code of 4000, the age reaches 16 and the timer 50. -/
theorem test_millisecond_counts :
    let s := (inState .fwd .feeding live).modLe .ret fun e => { e with state := .watching, age := 15 }
    let t := ({ s with
      align := ⟨{ boundaryTaken := true, timer := some 49 }, { boundaryTaken := true }⟩
      pins := { s.pins with converter := { s.pins.converter with forwardI := 4000 } } } : State).idle
    (t.leOf .fwd).overRun = 1 ∧ (t.leOf .ret).age = 16 ∧ (t.alignOf .a).timer = some 50 ∧ t.time = s.time + 1 := by
  decide

/-- A call waits, an alert stands for an ASSERTED pair of its post, and every link is UP. -/
def busy : State :=
  let s := inState .fwd .running { waiting with ls := { waiting.ls with topology := .single } }
  { s with
    cm := { s.cm with queue := [{ call with condition := some .major }] }
    sp := { s.sp with
      pairs := [{ entry := 0, pos := 3, asserted := true, due := 5 }]
      alerts := [{ entry := 0, pos := 3, severity := .major, code := 1, first := 0, last := 2, stale := false }]
      conditions := put1 s.sp.conditions 3 (some .major) } }

/-- The state after one step with a command at the front. -/
def stepped (c : Instr) (s : State) : State :=
  match step { s with pending := [c] } with
  | .next t => t
  | .fault _ | .refused _ => s

theorem witness_MemoryMarksAndCountersStaySound : busy.cs.memory.wf = true ∧ busy.settled = true ∧
    busy.counters.bounded = true ∧ (stepped (.answer .clA 5 [7, 2]) busy).settled = true := by decide
theorem witness_LinkInterfacesStaySound : busy.linksQuiet = true ∧ busy.queuesFit = true ∧
    (stepped (.answer .clA 5 [7, 2]) busy).queuesFit = true := by decide
theorem witness_CallNumbersStayDistinct : busy.callsSound = true ∧
    (stepped (.answer .clA 5 [7, 2]) busy).callsSound = true := by decide
theorem witness_OfferSetsStayCurrent : busy.callsSound = true ∧ busy.offersSound = true ∧
    (stepped (.answer .clA 5 [7, 2]) busy).offersSound = true := by decide
theorem witness_PostTableStaysSound :
    let ident : List Byte := List.replicate 50 0 ++ Resp.bytes 4 (.ident 9 1)
    let s := split.modLe .fwd fun e => { e with sent := some (.ls .discover 4) }
    busy.postsSound = true ∧ (stepped (.answer .clA 5 [7, 2]) busy).postsSound = true ∧ s.chainsOrdered = true ∧
      cleanResp (.ls .discover 4) (respPart ident) = some (.ident 9 1) ∧ s.servedBy .ret 4 = false ∧
      s.servedBy .ret 5 = true ∧ cleanResp (.ls .claim 5) (Resp.bytes 5 (.claimed 9 1)) = some (.claimed 9 1) := by
  decide +kernel
theorem witness_VoicePathsBelongToCalls : busy.callsSound = true ∧ busy.postsSound = true ∧
    busy.voiceSound = true ∧
    (stepped (.answer .clA 5 [7, 2]) busy).voiceSound = true ∧ connected.voiceSound = true ∧
    busy.severedSound = true ∧ (stepped (.restartLine .clA 5 []) busy).severedSound = true ∧
    busy.voiceWhole = true := by decide +kernel
/-- R90: RESTART_LINE severs the waiting call of a post that it leaves unserved. -/
theorem test_restart_severs : ((after (.restartLine .clA 5 []) busy).callOf 7).map (·.state) = some .severed := by
  decide +kernel
theorem witness_AlertTableStaysSound : busy.alertsSound = true ∧
    (stepped (.answer .clA 5 [7, 2]) busy).alertsSound = true := by decide

/-! ### Witnesses: device, load and save -/

theorem witness_ResetAndStartUpFollowTheRules : (at_ 5 State.reset).dev = .starting ∧ 5 ≤ (at_ 5 State.reset).time ∧
    live.dev ≠ .starting ∧ (at_ 4 State.reset).time < 5 ∧ ({ State.reset with dev := .loading } : State).dev = .loading := by
  decide
theorem witness_SavedImageLoadsBack :
    storable { siteName := [65], escalationTime := 0, keepAlive := ⟨100, 10000, 2000⟩ } 65535
      (put1 (put1 (Vector.replicate 16 none) 3 (some record3)) 16 (some { record3 with cable := 65535 }))
      (put1 (Vector.replicate 32 {}) 32 { enabled := true, target := none, interval := 3600 }) = true := by decide

def saving (stage : SaveStage) : State :=
  { live with cs := { live.cs with
      stage := stage, writing := [1, 2, 3], writingVersion := 4
      requester := some { master := .clA, tag := 5, orphaned := false } } }

theorem witness_SaveStoresTheImageAndReports : live.ready .clA ∧ (live.take .clA).cs.stage = .idle ∧
    (saving .writing).cs.stage = .writing ∧ (saving .writing).cs.memory.wf = true ∧
    (saving .writing).cs.writing.length ≤ memorySize ∧ (saving .verifying).cs.stage = .verifying ∧
    (saving .writing).cs.stage ≠ .idle := by unfold State.ready; decide

/-! ### Witnesses: links -/

/-- Call 7 waits while all links are DOWN, so that its offer set is empty. -/
def unheard : State := (served .fwd dark).setQueue [{ call with offer := ⟨false, false, false⟩ }]

theorem witness_TakesKeepLinksAlive : (live.lifOf .clA).link = .up ∧ (unheard.lifOf .clB).link = .down ∧
    unheard.callsSound = true ∧ unheard.cm.queue ≠ [] ∧ (unheard.take .clB).callOf 7 ≠ unheard.callOf 7 ∧
    (unheard.alignOf .b).state = .searching ∧ (unheard.alignOf .b).timer = none ∧ live.ready .clA ∧ unheard.ready .clB := by
  unfold State.ready; decide

/-- A master whose STATUS is pending and whose receive queue holds k requests. -/
def clogged (k : Nat) (s : State) : State :=
  s.modLif .clA fun l => { l with statusPending := true, rx := List.replicate k (msg 1 []) }

/-- The same master with 32 messages in its transmit queue, of which the last is `x`. -/
def filled (x : TxEntry) : State :=
  (clogged 4 live).modLif .clA fun l => { l with tx := List.replicate 31 ⟨.accepted 0, 0⟩ ++ [x] }

theorem witness_RequestWaitsOrOverruns : (msg 1 []).kind ≠ 0 ∧ ((clogged 3 live).lifOf .clA).canTake = false ∧
    ((clogged 3 live).lifOf .clA).rx.length < 4 ∧ ((clogged 4 live).lifOf .clA).canTake = false ∧
    4 ≤ ((clogged 4 live).lifOf .clA).rx.length ∧ ((clogged 4 live).lifOf .clA).link = .up ∧
    ((clogged 4 live).lifOf .clA).tx.length < 32 ∧ ((clogged 4 dark).lifOf .clA).link = .down ∧
    ((filled ⟨.callWithdrawn 7 .ended, 0⟩).lifOf .clA).canTake = false ∧
    32 ≤ ((filled ⟨.callWithdrawn 7 .ended, 0⟩).lifOf .clA).tx.length ∧
    (OutMsg.callWithdrawn 7 .ended).isNotice = true ∧
    ((filled ⟨.callWithdrawn 7 .ended, 1⟩).lifOf .clA).tx.all (fun e => !(e.msg.isNotice && e.sent == 0)) = true := by
  decide
theorem witness_UnreadyAndUnreadableRequestsAreRefused : State.reset.dev ≠ .running ∧ (State.reset.lifOf .mp).rx = [] ∧
    (State.reset.lifOf .mp).canTake = true ∧ ((State.reset.take .mp).lifOf .mp).hasRoom = true ∧ live.ready .clA ∧
    (msg 32 []).kind ≠ 0 ∧ (msg 13 [1]).kind ≠ 0 ∧ 31 < (msg 32 []).kind.toNat ∧ bodyLength (msg 13 [1]).kind.toNat = some 33 ∧
    (msg 13 [1]).body.length ≠ 33 ∧ waiting.ready .clA ∧ (waiting.take .clA).callOf (8 : Byte).toNat = none ∧
    (msg 4 [8, 1]).kind.toNat ∈ [4, 6] ∧ (msg 8 [8]).kind.toNat ∈ [5, 8] ∧ (3 : Byte).toNat ≤ 3 := by
  unfold State.ready; decide
theorem witness_MpRightsAreLimited : live.ready .mp ∧ dark.ready .mp ∧ (msg 27 []).kind ∈ deniedToMp := by
  unfold State.ready; decide

/-- A poll body: entry 31, target 16, ABOVE, interval 3600. -/
def pollBody : List Byte := [31, 1, 16, 5, 2, 0, 15, 0, 3, 0, 1, 2, 7, 14, 16]

theorem witness_SaveInFlightHoldsOffChanges : (saving .writing).ready .clA ∧
    ((saving .writing).take .clA).cs.stage ≠ .idle ∧ (entryOperands entryBody).isSome = true ∧
    (settingOperands [9, 2, 0, 7]).isSome = true ∧ (pollOperands pollBody).isSome = true ∧
    (saving .verifying).ready .mp := by unfold State.ready; decide
theorem witness_CallAndStoreReadsReport : waiting.ready .mp ∧ 1 ≤ (16 : Byte).toNat ∧ (16 : Byte).toNat ≤ 16 ∧
    (8 : Byte).toNat ≤ 8 := by unfold State.ready; decide
theorem witness_PollerAndLineReadsReport : live.ready .clB ∧ (31 : Byte).toNat ≤ 31 ∧ (48 : Byte).toNat ≤ 48 ∧
    sectionOf (1 : Byte).toNat = some .summary ∧ SectionName.summary.holds 0 = true ∧
    sectionOf (2 : Byte).toNat = some .spans ∧ SectionName.spans.holds 17 = true ∧
    sectionOf (3 : Byte).toNat = some .alerts ∧ SectionName.alerts.holds 40 = true ∧
    sectionOf (4 : Byte).toNat = some .values ∧ SectionName.values.holds 16 = true ∧ (16 : Byte).toNat ≤ 16 := by
  unfold State.ready; decide
theorem witness_CountersAreReadAndCleared :
    let s := live.modLif .clB fun l => { l with overruns := 255 }
    s.ready .clA ∧ (s.take .clA).counters.anyAbove = true ∧ (live.take .clA).counters.anyAbove = false := by
  unfold State.ready; decide

/-- A link frame with nothing in its section. -/
def emptyFrame : List Byte := linkFrame (List.replicate 64 213) [] none

/-- Control link A in ALIGNED with a miss count. -/
def aligned (k : Nat) : State := live.modAlign .a fun a => { a with state := .aligned, misses := k }

theorem witness_frame_passes : framePasses emptyFrame = true := framePasses_linkFrame _ _ _ rfl (by decide)
theorem witness_FrameBoundariesAlignTheLink : framePasses [] = false ∧
    ((aligned 3).alignOf .a).boundaryTaken = false ∧ ((aligned 3).alignOf .a).state = .aligned ∧
    ((aligned 2).alignOf .a).misses < 3 ∧ (live.alignOf .a).state = .searching ∧ (live.alignOf .a).candidate = false ∧
    ((live.modAlign .a fun a => { a with candidate := true }).alignOf .a).candidate = true ∧
    ((live.modAlign .a fun a => { a with boundaryTaken := true }).alignOf .a).boundaryTaken = true ∧
    (takeSection [] emptyFrame).out = [] ∧ (takeSection [] (linkFrame (List.replicate 64 213) [] (some 60))).bad = 1 := by
  decide +kernel
theorem witness_MessagesArriveAsSent :
    let short := msg 1 []
    let long := msg 13 (List.replicate 100 7)
    let begun := (aligned 0).modAlign .a fun a => { a with assembly := long.bytes.take 60 }
    live.mp.assembly = none ∧ (long.kind ≠ 0 ∧ (List.replicate 236 (0 : Byte)).length ≤ 236) ∧
    ((aligned 0).alignOf .a).boundaryTaken = false ∧ ((aligned 0).alignOf .a).state = .aligned ∧
    ((aligned 0).alignOf .a).assembly = [] ∧ (List.replicate 64 (0 : Byte)).length = 64 ∧
    (([short, short].flatMap Message.bytes).length ≤ 60 ∧ long.bytes.take 60 <+: long.bytes ∧
      (long.bytes.take 60).length = 60 ∧ (long.bytes.take 60).length < long.bytes.length) ∧
    ((begun.alignOf .a).assembly ++ long.bytes.drop 60 = [long].flatMap Message.bytes ++ [] ∧
      (begun.alignOf .a).assembly ≠ [] ∧ (long.bytes.drop 60).length ≤ 60) ∧
    (after (.mpMessageReceived [some 165, some 1]) live).mp.assembly = some [1] ∧
    (after (.mpMessageReceived [some 165, some 1]) live).mp.heard + 5 < 6 := by decide +kernel
/-- An MP message is handled at once: ALIVE with tag 9 and its check (R124, R184, R208, R213). -/
theorem test_mp_message_arrives :
    ((after (.mpMessageReceived ((165 :: withCheck [1, 9, 0, 4]).map some)) live).lifOf .mp).tx =
      [⟨.done 9 .empty, 0⟩] := by decide +kernel
/-- R209: a kind 0 after the start mark is no message, though its check would pass; the ALIVE behind it arrives. -/
theorem test_mp_kind_zero :
    ((after (.mpMessageReceived ((165 :: withCheck [0, 9, 0, 4] ++ 165 :: withCheck [1, 8, 0, 4]).map some))
      live).lifOf .mp).tx = [⟨.done 8 .empty, 0⟩] := by decide +kernel

/-- CL-A UP with a deadline that has come. -/
def expiring (s : State) : State := s.modLif .clA fun l => { l with deadline := some 0 }

theorem witness_LinkDownRescuesCalls : (expiring connected).callsSound = true ∧
    ((expiring connected).lifOf .clA).link = .up ∧ ((expiring connected).lifOf .clA).deadline = some 0 ∧
    (connected.callOf 7).map (fun c => (c.owner, c.state)) = some (some .clA, .connected) ∧
    (alerting.callOf 1).map (fun c => (c.owner, c.state)) = some (some .clA, .alerting) ∧
    ((after (.clear .clA 7 [7]) connected).callOf 7).map (fun c => (c.owner, c.state)) =
      some (some .clA, .clearing) ∧ (waiting.callOf 7).map (·.owner) = some none ∧
    ((live.modAlign .a fun a => { a with timer := some 49 }).alignOf .a).timer = some 49 ∧
    ((live.modAlign .a fun a => { a with timer := some 50 }).lifOf (linkMaster .a)).link = .up ∧
    ((dark.modAlign .a fun a => { a with timer := some 50 }).lifOf (linkMaster .a)).link = .down := by decide
theorem witness_QueuesDrainAndStatusIsMade :
    let s := live.modLif .mp fun l =>
      { l with tx := [⟨.refused 4 .busy none, 9⟩], statusPending := true, periodic := some 0, statusDue := true }
    (s.lifOf .mp).tx = [⟨.refused 4 .busy none, 9⟩] ∧ (OutMsg.refused 4 .busy none).size + 3 ≤ 9 ∧
      (s.lifOf .mp).link = .up ∧ (s.lifOf .mp).periodic = some 0 ∧ (s.lifOf .mp).statusDue = true := by decide
/-- Nothing is due and CL-A has a message under way, one that begins in the frame and one that cannot. -/
def sending : State :=
  ({ connected with align := ⟨{ boundaryTaken := true }, { boundaryTaken := true }⟩, pending := [] } : State).modLif .clA
    fun l => { l with statusDue := false, tx := [⟨.accepted 4, 2⟩, ⟨.accepted 5, 0⟩, ⟨.accepted 6, 0⟩] }

theorem witness_FramesCarryMessagesAndVoice : sending.pending = [] ∧ sending.takable = none ∧ sending.dueNow = none ∧
    (sending.lifOf .clA).tx = [⟨.accepted 4, 2⟩] ++ ⟨.accepted 5, 0⟩ :: [⟨.accepted 6, 0⟩] ∧
    (live.lifOf .clA).tx.all (fun y => y.sent != 0) = true ∧
    chains.all (fun d => (sending.vx.upVoice.get d).length == 48) = true ∧
    sending.channelOf .clA 2 = some { call := 7, chain := .fwd, slot := 1 } ∧
    (live.alignOf .a).voice.length = 64 ∧ live.mp.voiceIn.length = 8 ∧ live.channelOf .mp 1 = none ∧
    ((after (.answer .mp 5 [7, 1]) waiting).channelOf .mp 1).isSome = true := by decide

/-! ### Witnesses: calls -/

/-- A device whose CL-B accepts nothing and whose MP is DOWN. -/
def picky (a : OfferFilter) : State :=
  let s := live.modLif .mp fun l => { l with link := .down }
  { s with cs := { s.cs with settings := { s.cs.settings with offerFilter := ⟨a, { positions := 0 }, {}⟩ } } }

theorem witness_NewRecordsAreNumberedPlacedAndOffered : waiting.cm.queue.length + waiting.cm.abandoned.length < 255 ∧
    [{ call with cls := .emergency }, call, { call with cls := .callout }].Pairwise
      (fun x y => x.cls.code ≤ y.cls.code) ∧ live.inE call.cls .clB = true ∧ (picky {}).inE call.cls .mp = false ∧
    (picky {}).accepts .clA call = true ∧ (picky { positions := 0 }).accepts .clA call = false ∧
    (picky { positions := 0 }).inE call.cls .clA = true ∧ dark.inE call.cls .clA = false := by decide

/-- All six forward slots are taken. -/
def fullPool : State := { waiting with vx := { waiting.vx with pools := ⟨Vector.replicate 6 (some 99), Vector.replicate 6 none⟩ } }

/-- What the checks of ANSWER see: eligible, owner, state, channel in range, channel held. -/
def answerView (s : State) (m : Master) (num ch : Nat) : Option (Bool × Option Master × CallState × Bool × Bool) :=
  ((s.take m).callOf num).map fun c =>
    ((s.take m).eligible m c.cls, c.owner, c.state, channelIn m ch, ((s.take m).channelOf m ch).isSome)

/-- An EMERGENCY call waits, which MP may not answer while a control link is UP. -/
def emergency : State := withCall { call with cls := .emergency }

/-- Call 7 is CONNECTED on CL-A's channel 2 and call 8 waits. -/
def second : State := connected.setQueue (connected.cm.queue ++ [{ call with number := 8, pos := 4 }])

theorem witness_AnswerIsCheckedInOrder :
    (emergency.ready .mp ∧ answerView emergency .mp 7 1 = some (false, none, .waiting, true, false)) ∧
    (connected.ready .clB ∧ answerView connected .clB 7 1 = some (true, some .clA, .connected, true, false)) ∧
    (alerting.ready .clA ∧ answerView alerting .clA 1 1 = some (true, some .clA, .alerting, true, false)) ∧
    (connected.ready .clA ∧ answerView connected .clA 7 1 = some (true, some .clA, .connected, true, false)) ∧
    (waiting.ready .mp ∧ answerView waiting .mp 7 2 = some (true, none, .waiting, false, false)) ∧
    (second.ready .clA ∧ answerView second .clA 8 2 = some (true, none, .waiting, true, true)) ∧
    fullPool.ready .clA ∧ answerView fullPool .clA 7 8 = some (true, none, .waiting, true, false) ∧
    ((fullPool.take .clA).post call.pos).serving = some .fwd ∧
    (List.range 6).all (fun k => ((fullPool.take .clA).slotOf .fwd (k + 1)).isSome) = true := by
  unfold State.ready
  refine ⟨?_, ?_, ?_, ?_, ?_, ?_, ?_⟩ <;> decide
theorem witness_AnswerConnectsTheCall : waiting.ready .clA ∧ (waiting.take .clA).callOf (7 : Byte).toNat = some call ∧
    (waiting.take .clA).eligible .clA call.cls = true ∧ channelIn .clA (8 : Byte).toNat = true ∧
    (waiting.take .clA).channelOf .clA (8 : Byte).toNat = none ∧ ((waiting.take .clA).post call.pos).serving = some .fwd ∧
    (waiting.take .clA).slotOf .fwd 1 = none := by unfold State.ready; decide
theorem witness_HoldAndRetrieveMoveTheVoicePath : connected.ready .clA ∧
    ((connected.take .clA).callOf (7 : Byte).toNat).map (fun c => (c.state, c.owner)) =
      some (.connected, some .clA) ∧ held.ready .clA ∧
    ((held.take .clA).callOf (7 : Byte).toNat).map (fun c => (c.state, c.owner)) = some (.held, some .clA) ∧
    (held.take .clA).channelOf .clA (1 : Byte).toNat = none ∧ ((held.take .clA).post 3).serving = some .fwd ∧
    (held.take .clA).slotOf .fwd 1 = none := by unfold State.ready; decide +kernel
theorem witness_TransferOffersToTheTarget : connected.ready .clA ∧ masterOfCode (3 : Byte).toNat = some .mp ∧
    ((connected.take .clA).lifOf .mp).link = .up ∧ (connected.take .clA).eligible .mp .service = true ∧
    held.ready .clA := by unfold State.ready; decide
theorem witness_ClearBeginsTheRelease : waiting.ready .clB ∧ connected.ready .clA ∧ alerting.ready .clA ∧
    (waiting.take .clB).callOf (7 : Byte).toNat = some call ∧
    ((alerting.take .clA).callOf (1 : Byte).toNat).map (fun c => (c.state, c.owner, c.hookOff)) =
      some (.alerting, some .clA, false) := by unfold State.ready; decide
theorem witness_CalloutRingsThePost :
    let s := served .fwd live
    s.ready .mp ∧ validPos (3 : Byte).toNat = true ∧ channelIn .mp (1 : Byte).toNat = true ∧
      ((s.take .mp).post (3 : Byte).toNat).serving = some .fwd ∧ (s.take .mp).callAt 3 = none ∧
      (s.take .mp).markOf 3 = none ∧ (s.take .mp).channelOf .mp 1 = none ∧ (s.take .mp).slotOf .fwd 1 = none := by
  unfold State.ready; decide
theorem witness_CallsEndByCloseAndByTime : severed.ready .clA ∧
    ((severed.take .clA).callOf (7 : Byte).toNat).map (·.state) = some .severed ∧
    ((at_ 60000 (withCall { call with cls := .test })).callOf 7).map (fun c => (c.state, c.cls, c.timer)) =
      some (.waiting, .test, 0) ∧
    ((at_ 60000 alerting).callOf 1).map (fun c => (c.state, c.timer)) = some (.alerting, 0) := by
  unfold State.ready; decide

/-- An abandoned entry with number 9. -/
def abandonedNine : State :=
  live.addAbandoned
    { number := 9, pos := 3, name := { version := 0, record := none }, cls := .service, arrival := 0, ended := 5
      reason := .callerGone }

theorem witness_AckRemovesTheAbandonedEntry : abandonedNine.ready .clA ∧ abandonedNine.ready .mp ∧
    (abandonedNine.take .clA).cm.abandoned.any (·.number == (9 : Byte).toNat) = true ∧
    (abandonedNine.take .clA).cm.abandoned.any (·.number == (8 : Byte).toNat) = false := by
  unfold State.ready; decide
theorem witness_EscalationWidensTheOffer : (at_ 30000 waiting).callOf 7 = some call ∧ call.state = .waiting ∧
    call.cls = .service ∧ call.flags.escalated = false ∧ waiting.cs.settings.escalationTime ≠ 0 ∧
    call.timer + waiting.cs.settings.escalationTime * 1000 ≤ 30000 := by decide

def preferring : Call := { call with pref := some (.lastOwner .clB 10), offer := ⟨false, true, false⟩ }

/-- A CLEARING call in stage TONE, its cleared-tone timer running. -/
def toned : Call :=
  { call with
    state := .clearing, offer := ⟨false, false, false⟩, owner := some .clA, stage := some .tone, toneTimer := some 3000 }

theorem witness_CallTimersRunOut : (at_ 10 (withCall preferring)).callOf 7 = some preferring ∧
    preferring.state = .waiting ∧ preferring.pref = some (.lastOwner .clB 10) ∧
    ((at_ 60000 held).callOf 7).map (fun c => (c.state, c.reminderBase)) = some (.held, some 0) ∧
    held.cs.settings.holdReminder = 60 ∧ (at_ 3000 (withCall toned)).callOf 7 = some toned := by decide

/-- A word of a post on the forward chain. -/
def word (off : Bool) (r : Request) : StatusWord := { hookOff := off, request := r, ringing := false, dir := .fwd, seq := 1 }

theorem witness_WordsRegisterAndUpgradeCalls :
    let s := withCall { call with cls := .test, resumed := true }
    let long := at_ 30000 s
    (served .fwd live).callAt 3 = none ∧ (served .fwd live).callsSound = true ∧
      (word true .service).request.class? = some .service ∧ (served .fwd live).markOf 3 = none ∧
      ((served .fwd live).setMark 3 (some 77)).markOf 3 = some 77 ∧ s.callsSound = true ∧
      s.callAt 3 = some { call with cls := .test, resumed := true } ∧
      (CallClass.service).code < (CallClass.test).code ∧
      s.escalates (s.reoffered { call with cls := .service }) = false ∧
      long.escalates (long.reoffered { call with cls := .service }) = true ∧ call.hookOff = true ∧
      (word false .service).hookOff ≠ call.hookOff := by decide
theorem witness_HooksAndAcksMoveCalls :
    let cleared : Call := { toned with stage := some .release, toneTimer := none }
    (waiting.callsSound = true ∧ waiting.callAt 3 = some call ∧ call.hookOff = true) ∧
      (connected.callAt 3).map (fun c => (c.state, c.hookOff)) = some (.connected, true) ∧
      (alerting.callAt 3).map (fun c => (c.state, c.hookOff, c.slot)) = some (.alerting, false, some (.fwd, 1)) ∧
      alerting.callsSound = true ∧ (withCall toned).callAt 3 = some toned ∧ (withCall cleared).callAt 3 = some cleared ∧
      (withCall cleared).callsSound = true ∧
      (withCall { toned with toneTimer := none }).callAt 3 = some { toned with toneTimer := none } := by decide

/-! ### Witnesses: configuration, supervision, measurement -/

theorem witness_DirectoryChangesTakeEffect : waiting.ready .clA ∧ (waiting.take .clA).cs.stage = .idle ∧
    (waiting.take .clA).callsSound = true ∧ entryOperands entryBody = some (3, record3) ∧
    (waiting.take .clA).keepsOrder 3 record3 = true ∧ (16 : Byte).toNat ≤ 16 := by unfold State.ready; decide
/-- The settings written at the time at which the new value is reached by call 7. -/
theorem witness_SettingsAreStored :
    let s := at_ 5000 (live.modLif .clB fun l => { l with lastTake := some 4000 })
    let esc : Settings := { escalationTime := 5 }
    live.ready .clB ∧ (live.take .clB).cs.stage = .idle ∧ (live.take .clB).settled = true ∧
      settingOperands [9, 2, 0, 7] = some (.keepAlive, some .clB, .number 100) ∧
      settingOperands [1, 0, 1] = some (.lineMode, none, .lineMode .loop) ∧
      settingOperands [10, 0, 0, 5] = some (.escalationTime, none, .number 5) ∧
      (settingOperands [17, 1, 0, 0]).map (·.1) = some .eventMask ∧
      (settingOperands [16, 1, 0, 0, 0]).map (·.1) = some .offerFilter ∧
      ((s.take .clA).lifOf .clB).link = .up ∧ ((s.take .clA).lifOf .clB).lastTake = some 4000 ∧
      (s.take .clA).cs.settings.put .keepAlive .clB (.number 100) ≠ (s.take .clA).cs.settings ∧
      (live.take .clB).cs.settings.put .keepAlive .clB (.number 2000) = (live.take .clB).cs.settings ∧
      (waiting.take .clA).callsSound = true ∧
      { at_ 5000 waiting with cs := { waiting.cs with settings := esc } }.escalates call = true := by
  unfold State.ready; decide +kernel
/-- R203: the window already held is written while the deadline stands reached, and the link stays UP. -/
theorem test_held_value_changes_nothing :
    let s := at_ 6000 (live.modLif .clB fun l => { l with lastTake := some 4000, deadline := some 6000 })
    ((after (.writeSetting .clA 5 [9, 2, 7, 208]) s).lifOf .clB).link = .up ∧
      ((after (.writeSetting .clA 5 [9, 2, 7, 207]) s).lifOf .clB).link = .down := by decide +kernel
theorem witness_PollEntriesAreReplaced : live.ready .mp ∧ (live.take .mp).cs.stage = .idle ∧
    (pollOperands pollBody).map (fun y => (y.1, y.2.enabled, y.2.target, y.2.interval)) =
      some (31, true, some 16, 3600) := by unfold State.ready; decide

/-- Entry 0 judges sensor 1 ABOVE 10, with hysteresis 2. -/
def judging (alerts : List Alert) (asserted : Bool) : State :=
  { live with sp := { live.sp with
      table := put1 live.sp.table 1
        { enabled := true, target := some 3, sensor := 1, mode := .above, compare := 10, hysteresis := 2, severity := .warning }
      pairs := [{ entry := 0, pos := 3, asserted := asserted, due := 0 }], alerts := alerts
      conditions := if asserted then put1 live.sp.conditions 3 (some .warning) else live.sp.conditions } }

def warned : Alert := { entry := 0, pos := 3, severity := .warning, code := 0, first := 0, last := 11, stale := true }

/-- 48 alerts of severity INFO at positions 1 to 3, and the CLEAR pair of entry 0 at position 4. -/
def crowded : State :=
  let alerts := (List.range 16).flatMap fun e => [1, 2, 3].map fun p =>
    ({ entry := e + 1, pos := p, severity := .info, code := 0, first := 0, last := 0, stale := false } : Alert)
  { judging alerts false with sp := { (judging alerts false).sp with
      pairs := alerts.map (fun a => { entry := a.entry, pos := a.pos, asserted := true, due := 0 }) ++
        [{ entry := 0, pos := 4, asserted := false, due := 0 }]
      conditions := [1, 2, 3].foldl (fun c p => put1 c p (some .info)) live.sp.conditions } }

/-- The pair is ASSERTED and its alert was dropped, so that no condition stands. -/
def dropped : State :=
  { judging [] true with sp := { (judging [] true).sp with conditions := live.sp.conditions } }

/-- SP has a reading of entry 0 at position 3 under way on the forward chain. -/
def awaiting (void : Bool) : State :=
  let s := running fun e => { e with sense := some { pos := 3, sensor := 1, attempts := 2, flying := true } }
  { s with sp := { s.sp with
      inflight := ⟨some { entry := 0, pos := 3, sensor := 1, void := void }, none⟩
      pairs := [{ entry := 0, pos := 3, asserted := false, due := 0 }] } }

/-- R147: a reading that fails is due again after the interval of 1 s, one that is withdrawn at once. -/
theorem test_failed_reading_is_put_off :
    ((at_ 50 (awaiting false)).senseFailed .fwd).sp.pairs.map (·.due) = [1050] ∧
      ((at_ 50 (awaiting false)).withdrawSense .fwd (· == 3)).sp.pairs.map (·.due) = [0] := by decide

theorem witness_ReadingsAreJudged : (judging [] false).dev = .running ∧
    (live.sp.inflight.get .fwd = none ∧ ((awaiting true).sp.inflight.get .fwd).map (·.void) = some true ∧
      ((awaiting false).sp.inflight.get .fwd).map (·.void) = some false ∧
      ((awaiting false).leOf .fwd).sense.map (·.pos) = some 3) ∧ (judging [warned] true).dev = .running ∧
    crowded.dev = .running ∧ dropped.dev = .running ∧ (judging [] false).alertsSound = true ∧ (judging [warned] true).alertsSound = true ∧
    (judging [] false).callsSound = true ∧
    (judging [] false).pairOf 0 3 = some { entry := 0, pos := 3, asserted := false, due := 0 } ∧
    ((judging [] false).pollEntry 0).mode = .above ∧ ((judging [] false).pollEntry 0).compare = 10 ∧
    (judging [warned] true).alertOf 0 3 = some warned ∧ dropped.alertsSound = true ∧ dropped.callsSound = true ∧
    (dropped.pairOf 0 3).map (·.asserted) = some true ∧ dropped.alertOf 0 3 = none ∧
    (judging [warned] true).callsSound = true ∧ crowded.callsSound = true ∧
    crowded.alertsSound = true ∧ 48 ≤ crowded.sp.alerts.length ∧
    crowded.pairOf 0 4 = some { entry := 0, pos := 4, asserted := false, due := 0 } ∧
    validPos 16 = true := by decide +kernel

/-- A full forward round in flight that awaits a read of post 3. -/
def round : Round :=
  { chain := .fwd, kind := .full, number := 1, paired := false, v0 := 3000, i0 := 400
    targets := [{ pos := 3, mark := .waiting, volt := 0, cur := 0, paired := none }], spans := [3], inFlight := some 3 }

def measuring : State :=
  let s := inState .fwd .running (served .fwd live)
  { s with lm := { s.lm with
      mode := .focused, round := some round, cycle := some { start := 0, expiry := 0 }, focus := some 0 } }

theorem witness_MeasureEntersTheMode : measuring.ready .clA ∧ measureModeOf (3 : Byte).toNat = some .focused ∧
    (measuring.take .clA).lm.round = some round ∧ (live.take .clA).lm.round = none ∧ live.ready .clA ∧
    (live.take .clA).running .fwd = false ∧ (live.take .clA).running .ret = false ∧
    (live.take .clA).lm.fullReq = ⟨false, false⟩ := by unfold State.ready; decide

/-- Poll entry 0 has a due pair at post 3. -/
def polling : State :=
  let s := inState .fwd .running (served .fwd live)
  { s with sp := { s.sp with pairs := [{ entry := 0, pos := 3, asserted := false, due := 0 }] } }

/-- The round waits for its next read. -/
def betweenReads : State :=
  { measuring with lm := { measuring.lm with round := some { round with inFlight := none, paired := true } } }

/-- A full request of the forward chain, whose range 1 to 3 has the one readable post 3. -/
def asking : State :=
  let s := inState .fwd .running (served .fwd live)
  { s with ls := { s.ls with n := 3, topology := .single }, lm := { s.lm with fullReq := ⟨true, false⟩ } }

/-- The same line without a request, its cycle timer due. -/
def waking : State :=
  { asking with lm := { asking.lm with fullReq := ⟨false, false⟩, cycle := some { start := 0, expiry := 0 }, focus := some 0 } }

theorem witness_PollerAndMonitorTimersAct : measuring.lm.round = some round ∧ round.inFlight = some 3 ∧
    measuring.settled = true ∧ (measuring.lm.cycle.map (·.expiry)) = some 0 ∧ measuring.lm.focus = some 0 ∧
    polling.pairOf 0 3 = some { entry := 0, pos := 3, asserted := false, due := 0 } ∧
    (polling.post 3).state = .active ∧ (polling.post 3).serving = some .fwd ∧ polling.sp.inflight.get .fwd = none ∧
    (polling.leOf .fwd).sense = none ∧ waking.lm.round = none ∧ waking.settled = true ∧ waking.lm.focus = some 0 ∧
    waking.lm.cycle = some { start := 0, expiry := 0 } ∧ asking.nextRequest = some (.fwd, .full) ∧
    (waking.leOf .fwd).state = .running ∧ (waking.leOf .ret).state ≠ .running ∧ (waking.leOf .fwd).measure = none ∧
    waking.range .fwd = [1, 2] ++ 3 :: [] ∧ (waking.post 3).state = .active ∧ (waking.post 3).serving = some .fwd ∧
    (waking.post 2).serving = none := by decide

/-- R14, R40: the last QUARANTINED post of the return chain is served forward, and that chain has no probe due. -/
theorem test_post_given_up_leaves_no_probe_due :
    let s := (served .ret live).modPost 3 fun x => { x with state := .quarantined, score := 200 }
    let t := (s.modLe .ret fun e => { e with probeDue := true }).servePost .fwd 3 9 1
    (t.leOf .ret).probeDue = false ∧ (t.post 3).serving = some .fwd ∧ (t.post 3).state = .quarantined := by
  decide +kernel

/-- R42, R146: a released post is read at its word, before the response of the superframe is taken. -/
theorem test_released_post_is_read_at_its_word :
    let s := polling.modPost 3 fun x => { x with state := .quarantined, score := 0, releaseMark := true }
    let w : StatusWord := { hookOff := false, request := .idle, ringing := false, dir := .fwd, seq := 1 }
    ((s.takeWords .fwd (List.replicate 8 0 ++ w.bytes)).leOf .fwd).sense = some { pos := 3, sensor := 0 } := by
  decide +kernel
/-- The round with post 3 read; it alone is on the chain, so span 1 ends at post 1: posts 1 to 3 are read. -/
def readRound : Round :=
  { round with
    targets := [{ pos := 1, mark := .read, volt := 47000, cur := 2000, paired := none }], spans := [1], inFlight := none }

def roundEnds : State := { measuring with lm := { measuring.lm with round := some readRound } }

theorem witness_RoundsStartReadAndEnd : asking.ev.topo = false ∧ asking.lm.round = none ∧
    asking.nextRequest = some (.fwd, .full) ∧ (asking.leOf .fwd).measure = none ∧
    asking.range .fwd = [1, 2] ++ 3 :: [] ∧
    (asking.post 3).state = .active ∧ (asking.post 3).serving = some .fwd ∧ (asking.post 2).serving = none ∧
    asking.selected .fwd = [] ∧ measuring.lm.round = some round ∧ round.inFlight = some 3 ∧
    roundEnds.lm.round = some readRound ∧ readRound.inFlight = none ∧
    readRound.targets.all (fun x => x.mark != .waiting) = true ∧
    { measuring with ev := { measuring.ev with topo := true } }.ev.topo = true ∧ betweenReads.ev.topo = false ∧
    betweenReads.lm.round.map (fun r => (r.inFlight, r.paired, r.targets.map fun x => (x.pos, x.mark))) =
      some (none, true, [(3, .waiting)]) ∧ (betweenReads.leOf .fwd).measure = none ∧
    (betweenReads.post 3).state = .active ∧ (betweenReads.post 3).serving = some .fwd := by decide

/-- Distances of 0 and 1000 m at the ends of span 1, 560 ohms in 1000 km. -/
def rated : State :=
  { inState .fwd .running live with cs := { live.cs with
      directory := put1 live.cs.directory 1 (some { record3 with cable := 1000, ret := some 0 }) } }

theorem witness_SpansAndLeakageAreComputed :
    let lone := { asking with ls := { asking.ls with n := 1, topology := .single } }.modPost 1 fun x =>
      { x with state := .active, serving := some .fwd }
    let far : Target := { pos := 1, mark := .read, volt := 47000, cur := 2000, paired := none }
    let line := inState .fwd .running live
    ({ readRound with targets := [] } : Round).readTarget 1 = none ∧ readRound.readTarget 1 = some far ∧
      far.volt ≤ 3000 * 16 ∧ readRound.v0 = 3000 ∧ readRound.i0 = 400 ∧ readRound.chain = .fwd ∧
      allOf ((line.before .fwd 1).map (line.consumption readRound)) = some [] ∧
      ([] : List Nat).sum < 400 * 250 ∧ ({ readRound with i0 := 4095 } : Round).i0 = 4095 ∧
      ({ readRound with i0 := 0 } : Round).i0 * 250 ≤ ([] : List Nat).sum ∧
      ({ readRound with v0 := 2000 } : Round).v0 * 16 < far.volt ∧
      (inState .fwd .running live).distance .fwd 1 = none ∧ rated.distance .fwd 0 = some 0 ∧
      rated.distance .fwd 1 = some 1000 ∧ lone.ls.topology = .single ∧ 1 ≤ lone.ls.n ∧
      (lone.post 1).serving = some .fwd ∧ lone.ls.mode ≠ .loop ∧
      readRound.targets.all (fun x => x.mark != .skipped && x.cur != 65535) = true ∧ readRound.i0 ≠ 4095 := by decide

/-! ### Witnesses: the post line -/

theorem witness_PostRequestsReachTheLine :
    let s := (served .fwd live).modPost 3 fun x => { x with state := .quarantined }
    s.ready .clA ∧ ((s.take .clA).post 3).state ≠ .vacant ∧ ((s.take .clA).post 4).state = .vacant ∧
      ((s.take .clA).post 3).serving = some .fwd ∧ ((s.take .clA).lifOf .clA).access = none ∧
      (31 : Byte).toNat ≤ 31 ∧ (23 : Byte).toNat ≤ 23 := by unfold State.ready; decide
theorem witness_RestartLineStartsAnew : connected.ready .clA ∧ (connected.take .clA).callsSound = true ∧
    ((connected.take .clA).post 3).state = .active ∧ ((connected.take .clA).callAt 3).map (·.state) = some .connected ∧
    ((split.take .clA).leOf .fwd).state = .running ∧ ((connected.take .clA).post 4).state = .vacant ∧
    (((withCall toned).take .clA).callAt 3).map (·.state) = some .clearing := by
  unfold State.ready; decide
theorem witness_RejoinClaimsTheNextPost : live.ready .clA ∧ (live.take .clA).ls.topology ≠ .split ∧ split.ready .clA ∧
    (split.take .clA).ls.topology = .split ∧ ((split.take .clA).leOf .fwd).state = .running ∧
    ((split.take .clA).leOf .ret).state = .running ∧ (split.take .clA).b < (split.take .clA).ls.n := by
  unfold State.ready; decide

/-- The forward FIFO holds a message for post 2 and one for post 3. -/
def queued (m : Signal) : State :=
  (served .fwd live).modLe .fwd fun e => { e with signalling := [{ pos := 2, msg := .ring }, { pos := 3, msg := m }] }

theorem witness_SignallingKeepsOnePerPosition : ((served .fwd live).post 3).serving = some .fwd ∧
    ((served .fwd live).leOf .fwd).signalling = [] ∧
    (((queued .disconnect).leOf .fwd).signalling.map (·.pos)).Nodup ∧
    ((queued .disconnect).leOf .fwd).signalling = [{ pos := 2, msg := .ring }] ++ { pos := 3, msg := .disconnect } :: [] ∧
    ((queued .stopRing).leOf .fwd).signalling = [{ pos := 2, msg := .ring }] ++ { pos := 3, msg := .stopRing } :: [] := by
  decide

theorem witness_ArbiterChoosesByRank :
    let e := fun f => (running f).leOf .fwd
    (e id).state.active = true ∧ (e id).sent = none ∧ (e id).signalling = [] ∧ (e id).probeDue = false ∧
      (e id).measure = none ∧ (e id).lsMsg = none ∧ (e id).sense = none ∧
      ((queued .ring).leOf .fwd).signalling ≠ [] ∧
      (((after (.postRead .clA 4 [3, 1]) (running id)).lifOf .clA).access.map (·.chain)) = some .fwd ∧
      (e fun x => { x with measure := some { pos := 3 }, turn := .measurement }).measure = some { pos := 3 } ∧
      (e fun x => { x with lsMsg := some { kind := .probe, pos := 4 } }).turn = .supervision ∧
      (e fun x => { x with sense := some { pos := 3, sensor := 1 } }).sense = some { pos := 3, sensor := 1 } ∧
      ((inState .fwd .discovering (live.modLe .fwd fun x => { x with discovery := some { pos := 1 } })).leOf .fwd).discovery =
        some { pos := 1 } ∧
      ((running fun x => { x with probeDue := true }).modPost 3 fun x => { x with state := .quarantined }).probeTarget .fwd =
        some 3 := by decide

/-- The status part of an upstream superframe in which post 3 writes sequence 1 with the handset off and a SERVICE
request, byte 128 + 64 + 2 × 16 + 1, and post 4 a word that fails its check. -/
def frame34 : List Byte := List.replicate 8 0 ++ withCheck [225] ++ [1, 2, 3]

theorem witness_UpstreamWordsAreTaken :
    let s := running fun e => { e with sent := some .idle }
    let quiet := s.modPost 3 fun x => { x with silence := 15 }
    (live.leOf .fwd).state.active = false ∧ (s.leOf .fwd).state.active = true ∧ (s.leOf .fwd).sent = some .idle ∧ (s.post 3).serving = some .fwd ∧
      classify .fwd (s.post 3) (wordBytes 3 frame34) =
        .valid { hookOff := true, request := .service, ringing := false, dir := .fwd, seq := 1 } ∧
      classify .fwd (s.post 3) (wordBytes 3 []) = .absent ∧ (s.post 3).silence < 15 ∧ (quiet.post 3).silence = 15 ∧
      (s.post 4).serving ≠ some .fwd ∧ classify .fwd (s.post 3) (wordBytes 4 frame34) = .corrupt := by decide
/-- Post 3 ACTIVE with a score, and its call. -/
def scoring (score : Nat) (state : PostState) : State :=
  busy.modPost 3 fun x => { x with score := score, state := state, cleanProbes := 30 }

theorem witness_AttemptsScoreAndQuarantine : ((scoring 119 .active).post 3).serving = some .fwd ∧
    ((scoring 119 .active).post 4).serving ≠ some .fwd ∧ min 255 (119 + 8) < 128 ∧ 128 ≤ min 255 (120 + 8) ∧
    ((scoring 120 .active).post 3).state = .active ∧ (scoring 120 .active).callsSound = true ∧
    (scoring 120 .active).alertsSound = true ∧ ((scoring 127 .quarantined).post 3).state = .quarantined ∧
    ((scoring 127 .quarantined).post 3).cleanProbes < 31 ∧
    31 ≤ (((scoring 127 .quarantined).modPost 3 fun x => { x with cleanProbes := 31 }).post 3).cleanProbes ∧
    (((scoring 127 .quarantined).modPost 3 fun x => { x with releaseMark := true }).post 3).releaseMark = true := by decide

/-- The FIFO of `queued` with the message for post 3 under way for the given time. -/
def attempted (k : Nat) : State :=
  live.modLe .fwd fun e => { e with
    signalling := [{ pos := 2, msg := .ring }, { pos := 3, msg := .stopRing, attempts := k, flying := true }] }

def reading (fails : Nat) : Access :=
  { tag := 4, pos := 3, item := 1, write := none, chain := .fwd, order := 0, clock := none, fails := fails
    orphaned := false }

theorem witness_SignalsAndAccessesAreJudged :
    ((attempted 2).leOf .fwd).signalling =
      [{ pos := 2, msg := .ring }] ++ { pos := 3, msg := .stopRing, attempts := 2, flying := true } :: [] ∧
    (((attempted 1).leOf .fwd).signalling.map (·.pos)).Nodup ∧
    ((live.modLif .clA fun l => { l with access := some (reading 2) }).lifOf .clA).access = some (reading 2) ∧
    (reading 1).order = 0 ∧ (reading 1).chain = .fwd ∧ (reading 1).fails < 2 ∧
    ((awaiting false).leOf .fwd).sense = some { pos := 3, sensor := 1, attempts := 2, flying := true } ∧
    ((running fun e => { e with measure := some { pos := 3, attempts := 1, flying := true } }).leOf .fwd).measure =
      some { pos := 3, attempts := 1, flying := true } ∧ (live.leOf .fwd).sense = none := by decide

/-- A line end in a discovery run. -/
def seeking (d : Chain) (s : State) : State := inState d .discovering s

/-- A LOOP of 6 with the forward posts 1 to k and, if any, the return posts after a gap. -/
def loop (k : Nat) (back : List Nat) : State :=
  let s := { live with ls := { live.ls with mode := .loop, n := 6 } }
  let s := (List.range k).foldl (fun t p => t.modPost (p + 1) fun x => { x with state := .active, serving := some .fwd }) s
  back.foldl (fun t p => t.modPost p fun x => { x with state := .active, serving := some .ret }) s

/-- Call 7 is SEVERED at post 3, which no chain serves, with CL-A its last owner. -/
def lost : State :=
  (severed.modPost 3 fun x => { x with state := .lost, serving := none }).setQueue
    [{ call with state := .severed, offer := ⟨false, false, false⟩, lastOwner := some .clA }]

/-- R91: the post with serial 77 is back, or another one stands in its place. -/
theorem test_severed_call_returns :
    ((lost.servePost .ret 3 77 1).callOf 7).map (fun c => (c.state, c.offer, c.flags.reconnected)) =
        some (.waiting, ⟨true, false, false⟩, true) ∧
      (lost.servePost .ret 3 78 1).cm.queue = [] := by decide +kernel

theorem witness_DiscoveryBuildsTheLine : ((served .fwd live).post 3).serving = some .fwd ∧ (live.post 3).serving = none ∧
    validPos 3 = true ∧ ((live.post 3).serving ≠ some (otherChain .fwd)) ∧ live.ls.mode = .openLine ∧
    ((seeking .fwd live).leOf .fwd).state = .discovering ∧ live.ls.topology ≠ .rejoining ∧
    (loop 6 []).b = (loop 6 []).ls.n ∧ ((loop 6 []).leOf .ret).state = .off ∧ (loop 2 []).b < (loop 2 []).ls.n ∧
    ((inState .ret .running (loop 2 [4, 5])).leOf .ret).state = .running ∧ (loop 2 [4, 5]).b + 1 = 3 ∧
    (loop 2 []).returnCount = 0 ∧ (connected.modPost 3 fun x => { x with serving := some .ret }).returnCount ≠ 0 ∧
    ((seeking .ret (loop 2 [])).leOf .ret).state = .discovering ∧ ((seeking .ret (loop 2 [])).leOf .ret).found = 0 ∧
    (live.post 16).serving ≠ some (otherChain .fwd) ∧ validPos 16 = true ∧
    (lost.post 3).serving = none ∧ lost.callsSound = true ∧
    (lost.callAt 3).map (fun c => (c.state, c.serial)) = some (.severed, 77) ∧ lost.markOf 3 = none ∧
    (live.setMark 3 (some 77)).callAt 3 = none ∧ (live.setMark 3 (some 77)).markOf 3 = some 77 := by
  decide
theorem witness_ClaimsAndProbesRejoinTheChains :
    let asked := split.modLe .fwd fun e => { e with lsMsg := some { kind := .probe, pos := 4, attempts := 2, flying := true } }
    let back := served .ret (live.setQueue [{ call with state := .connected, owner := some .clA, slot := some (.ret, 1), channel := some 2 }])
    (asked.leOf .fwd).lsMsg = some { kind := .probe, pos := 4, attempts := 2, flying := true } ∧
      split.ls.topology = .split ∧ (split.leOf .fwd).state = .running ∧ (split.leOf .ret).state = .running ∧
      split.b < split.ls.n ∧ split.returnCount = 0 ∧ split.ls.mode = .loop ∧ (split.post 4).serving = none ∧
      (split.leOf .ret).lsMsg = none ∧ { split.ls with topology := .rejoining }.topology = .rejoining ∧
      (back.post 3).serving = some .ret ∧ back.callsSound = true ∧ back.slotOf .fwd 1 = none ∧
      (back.callAt 3).map (·.state) = some .connected ∧
      (List.range 6).all (fun k => ({ back with vx := fullPool.vx }.slotOf .fwd (k + 1)).isSome) = true := by decide
theorem witness_LossesLeaveBreaks :
    let watched := fun (age : Nat) => (inState .fwd .running (inState .ret .watching (loop 4 []))).modLe .ret fun e =>
      { e with age := age }
    (loop 4 []).served .fwd = [1, 2] ++ [3, 4] ∧ (loop 4 []).served .fwd = [1, 2, 3, 4] ++ [] ∧
      ((loop 4 []).post 4).serving = some .fwd ∧ [1, 2].getLast? = some 2 ∧ 2 ∉ [1, 3, 4] ∧
      (split.ls.topology = .split ∧ split.b < split.ls.n) ∧ ((watched 7).leOf .ret).age < 8 ∧
      8 ≤ ((watched 8).leOf .ret).age ∧ ((watched 8).leOf .ret).state = .watching ∧
      ((watched 8).leOf .fwd).state = .running ∧ busy.callsSound = true ∧ [3, 4].Nodup ∧
      (let s := connected.makeLost 3
       s.callsSound = true ∧ (s.post 3).serving = none ∧ (s.callAt 3).map (·.state) = some .connected) ∧
      (lost.callAt 3).map (·.state) = some .severed ∧ live.callAt 3 = none := by decide
theorem witness_OverCurrentFailsTheLineEnd :
    let s := split.modLe .fwd fun e => { e with overRun := 10 }
    (s.leOf .fwd).state.feedOn = true ∧ s.callsSound = true ∧ 10 ≤ (s.leOf .fwd).overRun ∧ (s.post 3).serving = some .fwd ∧
      (s.post 5).serving ≠ some .fwd ∧ live.ls.mode = .openLine ∧ s.ls.mode = .loop ∧ (s.leOf .ret).state = .running ∧
      ((inState .ret .watching s).leOf .ret).state = .watching ∧ ((inState .ret .failed s).leOf .ret).state = .failed := by
  decide

/-- LE-R watching a forward line whose age has come to 16. -/
def watching : State := (inState .ret .watching live).modLe .ret fun e => { e with age := 16, ageDue := true }

/-- A forward superframe as LE-F sends it. -/
theorem witness_forward_superframe : (downBytes .fwd .idle (List.replicate 48 213)).length = 68 ∧
    forwardPasses (downBytes .fwd .idle (List.replicate 48 213)) = true :=
  ⟨by simp [downBytes], forwardPasses_downBytes _ _ rfl⟩
theorem witness_LineTimersAndCountersRunOut :
    let feeding := fun (d : Chain) => inState d .feeding (split.modLe d fun e => { e with settle := some 0 })
    let failed := inState .fwd .failed (split.modLe .fwd fun e => { e with retry := some 0 })
    let due := split.modLe .fwd fun e => { e with refind := some 0 }
    let access : Access := { reading 0 with clock := some 32 }
    ((feeding .fwd).leOf .fwd).state = .feeding ∧ ((feeding .fwd).leOf .fwd).settle = some 0 ∧
      ((feeding .ret).leOf .ret).state = .feeding ∧ (split.post 5).serving ≠ some .fwd ∧ split.ls.n = 6 ∧
      live.ls.n = 0 ∧ (failed.leOf .fwd).state = .failed ∧ (failed.leOf .fwd).retry = some 0 ∧
      (due.leOf .fwd).state = .running ∧ (due.leOf .fwd).refind = some 0 ∧ (due.leOf .fwd).lsMsg = none ∧
      (split.post 4).state ≠ .active ∧ 4 ≤ split.ls.n ∧ split.b < 4 ∧ split.ls.mode = .loop ∧
      (watching.leOf .ret).state = .watching ∧ (watching.leOf .ret).ageDue = true ∧ watching.ls.n = 0 ∧
      ({ watching with ls := { watching.ls with n := 1 } }.post 1).serving ≠ some .fwd ∧
      ((running fun e => { e with probeWrapped := true }).leOf .fwd).probeWrapped = true ∧
      ((live.modLif .clA fun l => { l with access := some access }).lifOf .clA).access = some access ∧
      access.clock = some 32 := by decide +kernel

end Sys2Proof.Tests
end

section
/-! PROOF. The signalling FIFO (R36): where a message placed in it goes, and that it keeps one message for each
position. -/

namespace Sys2Proof.Machine

/-! ### Placing in the FIFO (R36) -/

theorem pos_notMem_of_absent {p : Nat} {q : List SigMsg} (h : ∀ x, x ∈ q → x.pos ≠ p) : p ∉ q.map (·.pos) := by
  intro hp
  obtain ⟨x, hx, e⟩ := List.mem_map.1 hp
  exact h x hx e

/-- A message for a position with none waiting joins the tail. -/
theorem putSignal_of_absent {p : Nat} {q : List SigMsg} (msg : Signal) (h : ∀ x, x ∈ q → x.pos ≠ p) :
    putSignal p msg q = q ++ [{ pos := p, msg := msg }] := by
  have notFound : q.find? (·.pos == p) = none := List.find?_eq_none.2 fun x hx => by simpa only [beq_iff_eq] using h x hx
  rw [putSignal, notFound]

/-- The other messages of the FIFO are for other positions. -/
theorem pos_ne_of_nodup {before later : List SigMsg} {x : SigMsg}
    (h : ((before ++ x :: later).map (·.pos)).Nodup) : ∀ y, y ∈ before ∨ y ∈ later → y.pos ≠ x.pos := by
  rw [List.map_append, List.map_cons, List.perm_middle.nodup_iff, ← List.map_append] at h
  intro y hy e
  exact (List.nodup_cons.1 h).1 (e ▸ List.mem_map_of_mem (List.mem_append.2 hy))

/-- The search of R36 finds the one message that waits for the position. -/
theorem find?_pos_of_nodup {before later : List SigMsg} {x : SigMsg}
    (h : ((before ++ x :: later).map (·.pos)).Nodup) :
    (before ++ x :: later).find? (·.pos == x.pos) = some x := by
  have clear : before.find? (·.pos == x.pos) = none :=
    List.find?_eq_none.2 fun y hy => by simpa only [beq_iff_eq] using pos_ne_of_nodup h y (.inl hy)
  rw [List.find?_append, clear, Option.none_or]
  exact List.find?_cons_of_pos (beq_self_eq_true x.pos)

/-- A waiting DISCONNECT keeps the new message out. -/
theorem putSignal_of_disconnect {before later : List SigMsg} {x : SigMsg} (msg : Signal)
    (h : ((before ++ x :: later).map (·.pos)).Nodup) (hx : x.msg = .disconnect) :
    putSignal x.pos msg (before ++ x :: later) = before ++ x :: later := by
  rw [putSignal, find?_pos_of_nodup h]
  exact if_pos (beq_iff_eq.2 hx)

/-- Any other waiting message is replaced in its place. -/
theorem putSignal_of_waiting {before later : List SigMsg} {x : SigMsg} (msg : Signal)
    (h : ((before ++ x :: later).map (·.pos)).Nodup) (hx : x.msg ≠ .disconnect) :
    putSignal x.pos msg (before ++ x :: later) = before ++ { pos := x.pos, msg := msg } :: later := by
  have stands : ∀ l : List SigMsg, (∀ y, y ∈ l → y.pos ≠ x.pos) →
      (l.map fun y => if y.pos = x.pos then { pos := x.pos, msg := msg } else y) = l := fun l hl =>
    (List.map_congr_left fun y hy => if_neg (hl y hy)).trans (List.map_id l)
  have others := pos_ne_of_nodup h
  simp only [putSignal, find?_pos_of_nodup h, beq_iff_eq, hx, if_false, List.map_append, List.map_cons, if_true,
    stands before fun y hy => others y (.inl hy), stands later fun y hy => others y (.inr hy)]

/-- The FIFO keeps one message for each position. -/
theorem putSignal_nodup (p : Nat) (msg : Signal) {q : List SigMsg} (h : (q.map (·.pos)).Nodup) :
    ((putSignal p msg q).map (·.pos)).Nodup := by
  by_cases waits : ∃ x, x ∈ q ∧ x.pos = p
  · obtain ⟨x, hx, rfl⟩ := waits
    obtain ⟨before, later, rfl⟩ := List.append_of_mem hx
    by_cases hd : x.msg = .disconnect
    · rwa [putSignal_of_disconnect msg h hd]
    · rw [putSignal_of_waiting msg h hd]
      simpa only [List.map_append, List.map_cons] using h
  · have absent : ∀ x, x ∈ q → x.pos ≠ p := fun x hx e => waits ⟨x, hx, e⟩
    rw [putSignal_of_absent msg absent, List.map_append, List.perm_append_comm.nodup_iff]
    exact List.nodup_cons.2 ⟨pos_notMem_of_absent absent, h⟩

/-- Distinct positions, all between 1 and 16 and with one of these absent, are fewer than 16. -/
theorem length_lt_of_position_absent {p : Nat} {q : List SigMsg} (h : (q.map (·.pos)).Nodup)
    (valid : ∀ x, x ∈ q → validPos x.pos = true) (hp : validPos p = true) (absent : ∀ x, x ∈ q → x.pos ≠ p) :
    q.length < 16 := by
  have nodup : (p :: q.map (·.pos)).Nodup := List.nodup_cons.2 ⟨pos_notMem_of_absent absent, h⟩
  have within : p :: q.map (·.pos) ⊆ List.range' 1 16 := by
    intro k hk
    have on_line : validPos k = true := by
      obtain rfl | hk := List.mem_cons.1 hk
      · exact hp
      · obtain ⟨x, hx, rfl⟩ := List.mem_map.1 hk
        exact valid x hx
    simp only [validPos, Bool.and_eq_true, decide_eq_true_eq] at on_line
    exact List.mem_range'_1.2 (by omega)
  have fits := nodup.length_le_of_subset within
  rwa [List.length_cons, List.length_map, List.length_range'] at fits

/-! ### Placing at the serving line end -/

/-- Placing changes the FIFO of the serving line end and no other field of any line end. -/
theorem State.placeSignal_of_serving {s : State} {p : Nat} {d : Chain} (msg : Signal)
    (h : (s.post p).serving = some d) :
    s.placeSignal p msg = s.modLe d fun e => { e with signalling := putSignal p msg e.signalling } := by
  rw [State.placeSignal, h]

/-- Settles O51: the cases of R36 are the lemmas on `putSignal`, at the line end that serves the post. -/
theorem signallingKeepsOnePerPosition : Obligations.SignallingKeepsOnePerPosition := by
  intro s p msg d serves
  rw [State.placeSignal_of_serving msg serves, State.modLe_leOf_same]
  refine ⟨⟨putSignal_of_absent msg, ?_, putSignal_nodup p msg, length_lt_of_position_absent⟩,
    fun e he => State.modLe_leOf_other s d e _ he⟩
  intro nodup before x later split at_p
  subst at_p
  dsimp only
  rw [split] at nodup ⊢
  exact ⟨putSignal_of_disconnect msg nodup, putSignal_of_waiting msg nodup⟩

end Sys2Proof.Machine
end

section
/-! PROOF. What a ready request finds and what its answer tells the links: the take leaves the link UP, a flag set for
all masters is one `Lif.told` per link, and a response beside it loses nothing (R124, R133, R187, R190). -/

namespace Sys2Proof.Machine

/-! ### The take leaves the link UP (R124, R133) -/

theorem LinksStand.of_lif {s t : State} (h : t.lif = s.lif) : LinksStand s t := fun k =>
  congrArg (fun x : PerMaster Lif => (x.get k).frame) h

theorem LinksStand.trans {s t u : State} (a : LinksStand s t) (b : LinksStand t u) : LinksStand s u :=
  fun k => (b k).trans (a k)

theorem foldl_linksStand {α : Type} (f : State → α → State) (xs : List α) (s : State)
    (h : ∀ t x, LinksStand t (f t x)) : LinksStand s (xs.foldl f s) := by
  induction xs generalizing s with
  | nil => exact .of_lif rfl
  | cons x xs ih => exact (h s x).trans (ih (f s x))

@[simp] theorem State.placeSignal_lif (s : State) (p : Nat) (msg : Signal) : (s.placeSignal p msg).lif = s.lif :=
  (congrArg State.lif (State.placeSignal_spec s p msg).2 :)

/-- An offer set computed anew sends notices and a tone at most. -/
theorem State.reoffer_linksStand (entry : Bool) (num : Nat) (s : State) : LinksStand s (s.reoffer entry num) := by
  unfold State.reoffer
  split
  · exact .of_lif rfl
  · split
    · exact .of_lif rfl
    · have notified : ∀ (g : Call → Call) (old : PerMaster Bool) (c : Call),
          LinksStand s ((s.modCall num g).offerNotices old c) :=
        fun g old c => .trans (.of_lif rfl) (State.offerNotices_told (s.modCall num g) old c).2.1
      dsimp only
      split
      · exact .trans (notified _ _ _) (.of_lif (State.placeSignal_lif _ _ _))
      · exact notified _ _ _

theorem State.refreshOffers_linksStand (num : Nat) (s : State) : LinksStand s (s.refreshOffers num) := by
  have offered := State.reoffer_linksStand false num s
  unfold State.refreshOffers
  dsimp only
  split
  · exact offered
  · obtain ⟨-, -, -, links, -⟩ := State.queueChanged_spec (s.reoffer false num)
    exact offered.trans links

theorem State.refreshAllOffers_linksStand (s : State) : LinksStand s s.refreshAllOffers :=
  foldl_linksStand _ _ s fun t num => State.refreshOffers_linksStand num t

@[simp] theorem Lif.withStatus_link (l : Lif) (x : Status) : (l.withStatus x).link = l.link := by
  unfold Lif.withStatus
  dsimp only
  split
  · rfl
  · split <;> rfl

@[simp] theorem State.startAlignTimer_lif (m : Master) (s : State) : (s.startAlignTimer m).lif = s.lif := by
  unfold State.startAlignTimer; split <;> rfl

theorem State.comeUp_linkUp (m : Master) (s : State) : (s.comeUp m).linkUp m = true := by
  unfold State.comeUp
  dsimp only
  rw [linkUp_of_frame (State.refreshAllOffers_linksStand _ m), State.linkUp, (State.makeStatus_spec _ m).1,
    Lif.withStatus_link, State.lifOf, State.startAlignTimer_lif]
  simp [State.modLif]

/-- Whatever the link was before, it is UP once a request is taken. -/
theorem State.take_linkUp (m : Master) (s : State) : (s.take m).linkUp m = true := by
  unfold State.take
  dsimp only
  split
  next up => simpa [State.linkUp] using up
  next => exact State.comeUp_linkUp m _

@[simp] theorem State.take_dev (m : Master) (s : State) : (s.take m).dev = s.dev :=
  congrArg Background.dev (State.take_background m s)

/-- A ready request is handled by its owner on the state after the take. -/
theorem State.ready.request {s : State} {m : Master} (h : s.ready m) (msg : Message) (owner : State → State) :
    s.request m msg owner = owner (s.take m) := by
  obtain ⟨run, first, can, -⟩ := h
  exact State.request_taken s m msg owner can first ((State.take_dev m s).trans run)

/-- A ready request has a place for its response. -/
theorem State.ready.room {s : State} {m : Master} (h : s.ready m) : ((s.take m).lifOf m).hasRoom = true := by
  obtain ⟨-, -, -, room⟩ := h
  exact room

/-! ### Flags told to a link (R190 to R192) -/

theorem EventFlag.single_eq_twoPow (f : EventFlag) : f.single = BitVec.twoPow 9 f.bit := rfl

theorem EventFlag.bit_lt (f : EventFlag) : f.bit < 9 := by cases f <;> decide

/-- What is left of one flag beside a set: nothing where the set has it. -/
theorem EventFlag.single_and_not (f : EventFlag) (x : BitVec 9) :
    f.single &&& ~~~x = if x.getLsbD f.bit then 0 else f.single := by
  rw [f.single_eq_twoPow, BitVec.and_comm, BitVec.and_twoPow, BitVec.getLsbD_not]
  cases x.getLsbD f.bit <;> simp [f.bit_lt]

theorem EventFlag.single_bne_zero (f : EventFlag) : (f.single != 0#9) = true := by cases f <;> decide

/-- A flag that stands already adds nothing. -/
theorem EventFlag.or_single_of_mem (f : EventFlag) (x : BitVec 9) (h : x.getLsbD f.bit = true) :
    x ||| f.single = x := by
  refine BitVec.eq_of_getLsbD_eq fun i _ => ?_
  rw [f.single_eq_twoPow, BitVec.getLsbD_or, BitVec.getLsbD_twoPow]
  by_cases e : f.bit = i
  · simp [← e, h]
  · simp [e]

@[simp] theorem flagSet_singleton (f : EventFlag) : flagSet [f] = f.single := by simp [flagSet]

@[simp] theorem advanced_zero (v : Nat) : advanced v 0 = v := by
  unfold advanced; split <;> omega

@[simp] theorem Lif.lostOf_nil (l : Lif) : l.lostOf [] = 0 := by simp [Lif.lostOf]

/-- One flag set for one master is told to its link and to no other. -/
theorem State.setFlag_lifOf (s : State) (m k : Master) (f : EventFlag) :
    (s.setFlag m f).lifOf k =
      if k = m then (s.lifOf k).told (s.cs.settings.eventMask.get k) f.single [] else s.lifOf k := by
  by_cases same : k = m
  · subst same
    rw [if_pos rfl]
    unfold State.setFlag
    by_cases stands : (s.lifOf k).flags.getLsbD f.bit = true
    · simp [State.flag, stands, Lif.told, f.or_single_of_mem _ stands, f.single_and_not]
    · rw [if_neg (by simpa [State.flag] using stands), State.modLif_lifOf_same]
      cases masked : (s.cs.settings.eventMask.get k).getLsbD f.bit <;>
        simp [Lif.told, State.linkUp, State.masked, f.single_and_not, f.single_bne_zero, stands, masked]
  · rw [if_neg same]
    unfold State.setFlag
    split
    · rfl
    · exact State.modLif_lifOf_other s m k _ same

/-- A flag set for all masters is told to every link. -/
theorem State.setFlagAll_lifOf (s : State) (f : EventFlag) (k : Master) :
    (s.setFlagAll f).lifOf k = (s.lifOf k).told (s.cs.settings.eventMask.get k) f.single [] := by
  have stored : ∀ (t : State) (m : Master), (t.setFlag m f).cs = t.cs := fun t m =>
    sansLif_cs (State.setFlag_sansLif t m f)
  cases k <;> simp [State.setFlagAll, State.setFlag_lifOf, stored]

/-! ### A response and a flag in one event (R187, R190) -/

/-- One message for a link with a free place is not lost. -/
theorem Lif.lostOf_onlyFor {s : State} {m : Master} (msg : OutMsg) (room : (s.lifOf m).hasRoom = true) (k : Master) :
    (s.lifOf k).lostOf (onlyFor m [msg] k) = 0 := by
  unfold onlyFor
  split
  next same =>
    subst same
    have free : (s.lifOf k).tx.length < txPlaces := by simpa [Lif.hasRoom] using room
    unfold Lif.lostOf
    split
    · simp only [List.length_singleton]; omega
    · rfl
  next => exact Lif.lostOf_nil _

/-- Where no notice is lost the flags of the event are those it sets itself. -/
theorem toldFlags_of_noneLost {s : State} {msgs : Master → List OutMsg} (fs : List EventFlag)
    (h : ∀ k, (s.lifOf k).lostOf (msgs k) = 0) (k : Master) : toldFlags fs msgs s k = flagSet fs := by
  simp [toldFlags, h]

/-- Messages queued first and flags told after are told together where no message is lost. -/
theorem Lif.told_of_queued {l : Lif} {msgs : List OutMsg} (mask set : BitVec 9) (h : l.lostOf msgs = 0) :
    { l with tx := l.queued msgs }.told mask set [] = l.told mask set msgs := by
  simp [Lif.told, h]

@[simp] theorem State.respond_sansLif (s : State) (m : Master) (msg : OutMsg) :
    (s.respond m msg).sansLif = s.sansLif := by
  unfold State.respond State.enqueue; split <;> simp

/-- A response to an UP master with a free place stands in its queue, and no other link changes. -/
theorem State.respond_lifOf {s : State} {m : Master} (msg : OutMsg) (up : s.linkUp m = true)
    (room : (s.lifOf m).hasRoom = true) (k : Master) :
    (s.respond m msg).lifOf k = { s.lifOf k with tx := (s.lifOf k).queued (onlyFor m [msg] k) } := by
  obtain ⟨-, -, queued⟩ := State.respond_told s m msg up room
  obtain ⟨answered, others, -⟩ := State.respond_only s m msg room
  rw [← queued k]
  by_cases same : k = m
  · subst same; rw [answered]
  · rw [others k same]

/-- A response beside a flag set for all masters: the links are told of both. -/
theorem tells_of_respond_setFlagAll {s u : State} {m : Master} {msg : OutMsg} (f : EventFlag)
    (up : s.linkUp m = true) (room : (s.lifOf m).hasRoom = true) (h : u.lif = (s.respond m msg).lif) :
    Tells [f] (onlyFor m [msg]) s (u.setFlagAll f) := by
  intro k
  have none_lost := Lif.lostOf_onlyFor msg room
  have answered : u.lifOf k = { s.lifOf k with tx := (s.lifOf k).queued (onlyFor m [msg] k) } := by
    rw [← State.respond_lifOf msg up room k, State.lifOf, h]; rfl
  rw [State.setFlagAll_lifOf, answered, sansLif_cs (State.setFlagAll_sansLif u f),
    toldFlags_of_noneLost _ none_lost, flagSet_singleton]
  exact Lif.told_of_queued _ _ (none_lost k)

end Sys2Proof.Machine
end

section
/-! PROOF. ACK_ABANDONED (R96): who may send it, which bodies it takes, and what removing an entry leaves alone. -/

namespace Sys2Proof.Machine

/-- A body that is not one byte names no operand. -/
theorem oneOperand_of_length_ne {body : List Byte} (h : body.length ≠ 1) : oneOperand body = none := by
  match body with
  | [] => rfl
  | [_] => exact absurd rfl h
  | _ :: _ :: _ => rfl

/-- The abandoned list without the entry of a number. -/
def State.dropAbandoned (num : Nat) (s : State) : State :=
  { s with cm := { s.cm with abandoned := s.cm.abandoned.filter (·.number != num) } }

/-- MP has no right to ACK_ABANDONED, whatever the body (R196). -/
theorem State.onAckAbandoned_mp (t : State) (tag : Byte) (body : List Byte) :
    t.onAckAbandoned .mp tag body = t.refuse .mp tag .notPermitted := rfl

theorem State.onAckAbandoned_malformed {m : Master} (t : State) (tag : Byte) {body : List Byte} (control : m ≠ .mp)
    (h : body.length ≠ 1) : t.onAckAbandoned m tag body = t.refuse m tag .badValue := by
  simp [State.onAckAbandoned, control, oneOperand_of_length_ne h]

/-- A number of the list is answered DONE, its entry is removed and ABANDONED is set for all masters. -/
theorem State.onAckAbandoned_listed {m : Master} {t : State} {num : Byte} (tag : Byte) (control : m ≠ .mp)
    (h : t.cm.abandoned.any (·.number == num.toNat) = true) :
    t.onAckAbandoned m tag [num] = ((t.answerDone m tag .empty).dropAbandoned num.toNat).setFlagAll .abandoned := by
  simp [State.onAckAbandoned, control, oneOperand, h, State.dropAbandoned]

theorem State.onAckAbandoned_unlisted {m : Master} {t : State} {num : Byte} (tag : Byte) (control : m ≠ .mp)
    (h : t.cm.abandoned.any (·.number == num.toNat) = false) :
    t.onAckAbandoned m tag [num] = t.refuse m tag .noSuchCall := by
  simp [State.onAckAbandoned, control, oneOperand, h]

/-- A ready ACK_ABANDONED is handled on the state after its take. -/
theorem exec_ackAbandoned {s : State} {m : Master} (h : s.ready m) (tag : Byte) (body : List Byte) :
    exec (.ackAbandoned m tag body) s = .next ((s.take m).onAckAbandoned m tag body) :=
  congrArg Host.Outcome.next (h.request { kind := 11, tag := tag, body := body } (·.onAckAbandoned m tag body))

/-- What an acknowledged entry leaves alone: all of the state but the list, the response and the flag. -/
theorem State.acknowledged_spec {s : State} {m : Master} (tag : Byte) (num : Nat) (up : s.linkUp m = true)
    (room : (s.lifOf m).hasRoom = true) :
    let t := ((s.answerDone m tag .empty).dropAbandoned num).setFlagAll .abandoned
    t.cm = { s.cm with abandoned := s.cm.abandoned.filter (·.number != num) } ∧
      Tells [.abandoned] (onlyFor m [.done tag .empty]) s t ∧ { t with cm := s.cm, lif := s.lif } = s := by
  have dropped : ((s.answerDone m tag .empty).dropAbandoned num).sansLif = (s.dropAbandoned num).sansLif :=
    (congrArg (State.dropAbandoned num) (State.respond_sansLif s m (.done tag .empty)) :)
  have flagged := (State.setFlagAll_sansLif _ .abandoned).trans dropped
  exact ⟨sansLif_cm flagged, tells_of_respond_setFlagAll .abandoned up room rfl,
    congrArg (fun x : State => { x with cm := s.cm, lif := s.lif }) flagged⟩

/-- Settles O35: the branches of ACK_ABANDONED in the order of R96, each on the state after the take. -/
theorem ackRemovesTheAbandonedEntry : Obligations.AckRemovesTheAbandonedEntry := by
  refine ⟨fun s tag body ready => ?_, fun s m tag body ready control malformed => ?_,
    fun s m tag num ready control => ⟨fun listed => ?_, fun unlisted => ?_⟩⟩
  · refine ⟨_, exec_ackAbandoned ready tag body, ?_⟩
    rw [State.onAckAbandoned_mp]
    exact State.respond_only _ _ _ ready.room
  · refine ⟨_, exec_ackAbandoned ready tag body, ?_⟩
    rw [State.onAckAbandoned_malformed _ tag control malformed]
    exact State.respond_only _ _ _ ready.room
  · refine ⟨_, exec_ackAbandoned ready tag [num], ?_⟩
    rw [State.onAckAbandoned_listed tag control listed]
    exact State.acknowledged_spec tag num.toNat (State.take_linkUp m s) ready.room
  · refine ⟨_, exec_ackAbandoned ready tag [num], ?_⟩
    rw [State.onAckAbandoned_unlisted tag control unlisted]
    exact State.respond_only _ _ _ ready.room

end Sys2Proof.Machine
end

section
/-! PROOF. What MP may not ask for (R196): the owner of each denied request looks at the sender before anything else,
and the take has started the deadline of the link anew (R124, R133). -/

namespace Sys2Proof.Machine

/-! ### The take starts the deadline anew (R124, R133) -/

@[simp] theorem Lif.withStatus_deadline (l : Lif) (x : Status) : (l.withStatus x).deadline = l.deadline := by
  unfold Lif.withStatus
  dsimp only
  split
  · rfl
  · split <;> rfl

theorem LinksStand.deadline {s t : State} (h : LinksStand s t) (m : Master) :
    (t.lifOf m).deadline = (s.lifOf m).deadline :=
  (congrArg Lif.deadline (h m) :)

/-- The STATUS and the offers of a link that comes UP leave its new deadline alone. -/
theorem State.comeUp_deadline (m : Master) (s : State) :
    ((s.comeUp m).lifOf m).deadline = some (s.time + s.cs.settings.keepAlive.get m) := by
  unfold State.comeUp
  dsimp only
  rw [(State.refreshAllOffers_linksStand _).deadline, (State.makeStatus_spec _ m).1, Lif.withStatus_deadline,
    State.lifOf, State.startAlignTimer_lif]
  simp [State.modLif]

/-- Whatever the link was before, its deadline is a whole window away once a request is taken. -/
theorem State.take_deadline (m : Master) (s : State) :
    ((s.take m).lifOf m).deadline = some (s.time + s.cs.settings.keepAlive.get m) := by
  unfold State.take
  dsimp only
  split
  next => rw [State.modLif_lifOf_same]; rfl
  next => rw [State.comeUp_deadline]; rfl

/-! ### The rights of MP (R196) -/

/-- A ready message is handled by its kind on the state after its take. -/
theorem exec_requestOf_ready {s : State} {m : Master} {x : Message} (h : s.ready m) (kind : x.kind ≠ 0) :
    exec (requestOf m x) s = .next ((s.take m).handle m x) := by
  have message : isFill x.kind = false := by simpa [isFill] using kind
  rw [State.arrive_spec, State.arrive, message]
  exact congrArg Host.Outcome.next (h.request x (·.handle m x))

/-- Kind 0, which is never a message (R209), is not among the denied requests. -/
theorem kind_ne_zero_of_denied {kind : Byte} (denied : kind ∈ deniedToMp) : kind ≠ 0 :=
  ne_of_mem_of_not_mem denied (by decide)

/-- The owner of each denied request refuses MP at its first check, before it looks at the body. -/
theorem State.handle_denied (t : State) {x : Message} (denied : x.kind ∈ deniedToMp) :
    t.handle .mp x = t.refuse .mp x.tag .notPermitted := by
  obtain ⟨kind, tag, body⟩ := x
  simp only [deniedToMp, List.mem_cons, List.not_mem_nil, or_false] at denied
  obtain rfl | rfl | rfl | rfl | rfl | rfl | rfl | rfl | rfl := denied
  · exact (rfl : t.onClose .mp tag body = _)
  · exact t.onAckAbandoned_mp tag body
  · exact (rfl : t.onWriteEntry .mp tag body = _)
  · exact (rfl : t.onEraseEntry .mp tag body = _)
  · exact (rfl : t.onWriteSetting .mp tag body = _)
  · exact (rfl : t.onSave .mp tag body = _)
  · exact (rfl : t.onReleasePost .mp tag body = _)
  · exact (rfl : t.onRestartLine .mp tag body = _)
  · exact (rfl : t.onRejoin .mp tag body = _)

/-- Settles O17: the take leaves the link UP with a new deadline, and the refusal is all that follows it. -/
theorem mpRightsAreLimited : Obligations.MpRightsAreLimited := by
  intro s x ready denied
  have refused : Refuses .mp x .notPermitted s := by
    refine ⟨_, exec_requestOf_ready ready (kind_ne_zero_of_denied denied), ?_⟩
    rw [State.handle_denied _ denied]
    exact State.respond_only _ _ _ ready.room
  have up : ((s.take .mp).lifOf .mp).link = .up := by simpa [State.linkUp] using State.take_linkUp .mp s
  exact ⟨refused, up, State.take_deadline .mp s⟩

end Sys2Proof.Machine
end

section
/-! PROOF. The reads of calls, directory, settings and store (R56, R77, R97, R204): what the owner of each answers to a
well formed body, and that a response with its flag cleared is all that a read changes (R191). -/

namespace Sys2Proof.Machine

/-! ### A read changes the response and its flag alone (R191) -/

/-- A DONE to a master that has room, with a flag of that master cleared after it. -/
theorem State.answerDone_clearFlag_onlyReads {s : State} {m : Master} (tag : Byte) (d : Done) (f : EventFlag)
    (room : (s.lifOf m).hasRoom = true) : OnlyReads m tag d f s ((s.answerDone m tag d).clearFlag m f) := by
  obtain ⟨answered, others, rest⟩ := State.respond_only s m (.done tag d) room
  refine ⟨?_, fun k other => ?_, rest⟩
  · rw [State.clearFlag, State.modLif_lifOf_same, State.answerDone, answered]
  · rw [State.clearFlag, State.modLif_lifOf_other _ _ _ _ other]
    exact others k other

/-- A ready request that its owner answers DONE with a flag cleared only reads. -/
theorem State.ready.reads {s : State} {m : Master} {d : Done} {f : EventFlag} (h : s.ready m) (x : Message)
    (kind : x.kind ≠ 0)
    (handled : (s.take m).handle m x = ((s.take m).answerDone m x.tag d).clearFlag m f) :
    ∃ t, exec (requestOf m x) s = .next t ∧ OnlyReads m x.tag d f (s.take m) t := by
  refine ⟨_, exec_requestOf_ready h kind, ?_⟩
  rw [handled]
  exact State.answerDone_clearFlag_onlyReads x.tag d f h.room

/-- A ready request that its owner refuses is refused, and nothing else follows its take. -/
theorem State.ready.refuses {s : State} {m : Master} {r : Reason} (h : s.ready m) (x : Message)
    (kind : x.kind ≠ 0) (handled : (s.take m).handle m x = (s.take m).refuse m x.tag r) :
    Refuses m x r s := by
  refine ⟨_, exec_requestOf_ready h kind, ?_⟩
  rw [handled]
  exact State.respond_only _ _ _ h.room

/-! ### The owners of the reads (R56, R77, R97, R204) -/

/-- A body of one byte within the range reads as that byte. -/
theorem oneWithin_singleton {lo hi : Nat} {v : Byte} (above : lo ≤ v.toNat) (below : v.toNat ≤ hi) :
    oneWithin lo hi [v] = some v.toNat := by
  simp [oneWithin, oneOperand, Option.filter, above, below]

theorem State.onReadQueue_within {first : Byte} (m : Master) (tag : Byte) (t : State) (above : 1 ≤ first.toNat)
    (below : first.toNat ≤ 16) :
    t.onReadQueue m tag [first] =
      (t.answerDone m tag (.queuePage t.cm.queue.length t.cm.change
        ((page first.toNat t.cm.queue).map t.callReport))).clearFlag m .queue := by
  rw [State.onReadQueue, oneWithin_singleton above below]

theorem State.onReadAbandoned_within {first : Byte} (m : Master) (tag : Byte) (t : State)
    (above : 1 ≤ first.toNat) (below : first.toNat ≤ 8) :
    t.onReadAbandoned m tag [first] =
      (t.answerDone m tag (.abandonedPage t.cm.abandoned.length t.cm.overflow
        (page first.toNat t.cm.abandoned))).clearFlag m .abandoned := by
  rw [State.onReadAbandoned, oneWithin_singleton above below]

theorem State.onReadEntry_within {p : Byte} (m : Master) (tag : Byte) (t : State) (above : 1 ≤ p.toNat)
    (below : p.toNat ≤ 16) :
    t.onReadEntry m tag [p] =
      (t.answerDone m tag (.entry p.toNat (t.entry p.toNat) t.cs.version (t.post p.toNat).identity
        (t.post p.toNat).serial)).clearFlag m .directory := by
  rw [State.onReadEntry, oneWithin_singleton above below]

/-- Neither read looks at the stage of a SAVE: only the body decides (R204). -/
theorem State.onReadSettings_eq (m : Master) (tag : Byte) (body : List Byte) (t : State) :
    t.onReadSettings m tag body =
      if body = [] then (t.answerDone m tag (.settings t.cs.settings t.ls.mode t.ls.n)).clearFlag m .settings
      else t.refuse m tag .badValue := by
  simp only [State.onReadSettings, List.isEmpty_iff]

theorem State.onReadStore_eq (m : Master) (tag : Byte) (body : List Byte) (t : State) :
    t.onReadStore m tag body =
      if body = [] then (t.answerDone m tag (.store t.storeReport)).clearFlag m .store
      else t.refuse m tag .badValue := by
  simp only [State.onReadStore, List.isEmpty_iff]

/-- Settles O19: the owner of each read answers on the state after the take, and the read changes nothing else. -/
theorem callAndStoreReadsReport : Obligations.CallAndStoreReadsReport := by
  refine ⟨fun s m tag first ready above => ⟨fun below => ?_, fun below => ?_⟩,
    fun s m tag p ready => ⟨fun above below => ?_, ?_, ?_, fun body malformed => ⟨?_, ?_⟩⟩⟩
  · exact ready.reads ⟨2, tag, [first]⟩ (by simp) (State.onReadQueue_within m tag _ above below)
  · exact ready.reads ⟨3, tag, [first]⟩ (by simp) (State.onReadAbandoned_within m tag _ above below)
  · exact ready.reads ⟨12, tag, [p]⟩ (by simp) (State.onReadEntry_within m tag _ above below)
  · exact ready.reads ⟨15, tag, []⟩ (by simp) ((State.onReadSettings_eq m tag [] _).trans (if_pos rfl))
  · exact ready.reads ⟨16, tag, []⟩ (by simp) ((State.onReadStore_eq m tag [] _).trans (if_pos rfl))
  · exact ready.refuses _ (by simp) ((State.onReadSettings_eq m tag body _).trans (if_neg malformed))
  · exact ready.refuses _ (by simp) ((State.onReadStore_eq m tag body _).trans (if_neg malformed))

end Sys2Proof.Machine
end
